-- ==== Sys2Proof/Word.lean ====
section
/-! DEFINITION. The transaction word and the field notation of 00_scope.md R12. -/

namespace Sys2Proof

/-- A transaction word, and a bus register: 32 bits (R11, R42, R61). -/
abbrev Word := BitVec 32

/-- `v[hi:lo]` of R12: the bits from `hi` down to `lo`, read as an unsigned integer. -/
def Word.field (w : Word) (hi lo : Nat) : Nat := (w.extractLsb' lo (hi - lo + 1)).toNat

end Sys2Proof
end

