-- ==== Sys2Proof/Syntax.lean ====
section
/-! DEFINITION. The transactions: one constructor per row of spec/opcode_table.json (30_encoding.md R60, R66). -/

namespace Sys2Proof

/-- An edge's polarity (R26): `1` = rising, `0` = falling. -/
inductive Polarity where
  | rising
  | falling
deriving DecidableEq, Repr

/-- A transaction. Operand fields have the widths of the word's fields (R63, R64). -/
inductive Instr where
  /-- Row 1, the reset input (R170). -/
  | reset
  /-- Row 2, the counter advances (R120). -/
  | tick
  /-- Row 3, an edge of the input pin with its latched counter value (R80). -/
  | capture (pol : Polarity) (tick : BitVec 24)
  /-- Row 4, the engine processes the pending capture (R81). -/
  | service
  /-- Row 5, a read of STATUS (R100). -/
  | rdStatus
  /-- Row 6, a read of RESULT (R101). -/
  | rdResult
  /-- Row 7, a read of CTRL (R102). -/
  | rdCtrl
  /-- Row 8, a read of any other offset (R106). -/
  | rdOther (off : BitVec 8)
  /-- Row 9, a write of CTRL (R104). -/
  | wrCtrl (data : BitVec 16)
  /-- Row 10, a write of STATUS (R105). -/
  | wrStatus (data : BitVec 16)
  /-- Row 11, a write of RESULT (R105). -/
  | wrResult (data : BitVec 16)
  /-- Row 12, a write of any other offset (R106). -/
  | wrOther (off : BitVec 8) (data : BitVec 16)
  /-- Row 13, the counter is cleared (R121). -/
  | cntClear
deriving DecidableEq, Repr

/-- The seven transaction kinds (R60). -/
inductive Kind where
  | reset
  | tick
  | capture
  | service
  | busrd
  | buswr
  | cntClear
deriving DecidableEq, Repr

/-- The kind of a transaction (R60). -/
def Instr.kind : Instr → Kind
  | .reset => .reset
  | .tick => .tick
  | .capture _ _ => .capture
  | .service => .service
  | .rdStatus => .busrd
  | .rdResult => .busrd
  | .rdCtrl => .busrd
  | .rdOther _ => .busrd
  | .wrCtrl _ => .buswr
  | .wrStatus _ => .buswr
  | .wrResult _ => .buswr
  | .wrOther _ _ => .buswr
  | .cntClear => .cntClear

end Sys2Proof
end

