-- ==== Sys2Proof/WellFormed.lean ====
section
/-! DEFINITION. Which terms of `Instr` are transactions of the opcode map: rows 8 and 12 take "any OFF not in" the
rows before them (30_encoding.md R66, R67). Every other operand range is in the operand's type. -/

namespace Sys2Proof

/-- The offsets of the three registers (20_memory.md R40). -/
def registerOffsets : List (BitVec 8) := [0x00#8, 0x04#8, 0x08#8]

/-- R67: "rows 8 and 12 take only the offsets the earlier rows do not". -/
def Instr.wellFormed : Instr → Bool
  | .reset => true
  | .tick => true
  | .capture _ _ => true
  | .service => true
  | .rdStatus => true
  | .rdResult => true
  | .rdCtrl => true
  | .rdOther off => !registerOffsets.contains off
  | .wrCtrl _ => true
  | .wrStatus _ => true
  | .wrResult _ => true
  | .wrOther off _ => !registerOffsets.contains off
  | .cntClear => true

end Sys2Proof
end

