-- ==== Sys2Proof/Decode.lean ====
section
/-! DEFINITION. The decoder and the encoder of the 32-bit transaction word (30_encoding.md R61 to R73). -/

namespace Sys2Proof

/-- Why the decoder refuses a word (R70). -/
inductive DecodeRefusal where
  /-- `RESERVED_KIND`: KIND is 0b0000 or 0b1000 to 0b1111 (R69). Safe. -/
  | reservedKind
  /-- `NONZERO_MBZ`: a bit that the word's format marks "must be 0" is 1 (R70). Safe. -/
  | nonzeroMbz
deriving DecidableEq, Repr

/-- The decoder's answer: "either one transaction of rule R66 or refuse(reason)" (R70). -/
inductive Decoded where
  | transaction (i : Instr)
  | refuse (reason : DecodeRefusal)
deriving DecidableEq, Repr

/-- The transaction of a decoded word, none for a refusal. -/
def Decoded.instr? : Decoded → Option Instr
  | .transaction i => some i
  | .refuse _ => none

/-- The field KIND, bits 31:28 (R61). -/
def kindField (w : Word) : BitVec 4 := w.extractLsb' 28 4

/-- The kind that a value of KIND names, none where it is reserved (R61, R69). -/
def kindOfField (k : BitVec 4) : Option Kind :=
  match k with
  | 0b0001#4 => some .reset
  | 0b0010#4 => some .tick
  | 0b0011#4 => some .capture
  | 0b0100#4 => some .service
  | 0b0101#4 => some .busrd
  | 0b0110#4 => some .buswr
  | 0b0111#4 => some .cntClear
  | _ => none

/-- The kind of a word (R61). -/
def kindOf (w : Word) : Option Kind := kindOfField (kindField w)

/-- The bits that a kind's format marks "must be 0" (formats N, C and B: R62, R63, R64). -/
def mbzMask : Kind → Word
  | .reset => 0x0FFFFFFF#32
  | .tick => 0x0FFFFFFF#32
  | .capture => 0x07000000#32
  | .service => 0x0FFFFFFF#32
  | .busrd => 0x0FFFFF00#32
  | .buswr => 0x0F000000#32
  | .cntClear => 0x0FFFFFFF#32

/-- The field POL, bit 27, of format C (R63). -/
def polField (w : Word) : Polarity := if w.getLsbD 27 then .rising else .falling

/-- The field TICK, bits 23:0, of format C (R63). -/
def tickField (w : Word) : BitVec 24 := w.extractLsb' 0 24

/-- The field DATA, bits 23:8, of format B (R64). -/
def dataField (w : Word) : BitVec 16 := w.extractLsb' 8 16

/-- The field OFF, bits 7:0, of format B (R64). -/
def offField (w : Word) : BitVec 8 := w.extractLsb' 0 8

/-- One row of the opcode map (R66), with the transaction that its operand fields assemble (R65). -/
structure OpcodeRow where
  matchWord : Word
  mask : Word
  build : Word → Instr

/-- "takes the first whose `(word & mask) == match`" (R66). -/
def rowMatches (w : Word) (r : OpcodeRow) : Bool := (w &&& r.mask) == r.matchWord

/-- The opcode map, in the order of R66. -/
def opcodeRows : List OpcodeRow :=
  [ { matchWord := 0x10000000#32, mask := 0xFFFFFFFF#32, build := fun _ => .reset },
    { matchWord := 0x20000000#32, mask := 0xFFFFFFFF#32, build := fun _ => .tick },
    { matchWord := 0x30000000#32, mask := 0xF7000000#32, build := fun w => .capture (polField w) (tickField w) },
    { matchWord := 0x40000000#32, mask := 0xFFFFFFFF#32, build := fun _ => .service },
    { matchWord := 0x50000000#32, mask := 0xFFFFFFFF#32, build := fun _ => .rdStatus },
    { matchWord := 0x50000004#32, mask := 0xFFFFFFFF#32, build := fun _ => .rdResult },
    { matchWord := 0x50000008#32, mask := 0xFFFFFFFF#32, build := fun _ => .rdCtrl },
    { matchWord := 0x50000000#32, mask := 0xFFFFFF00#32, build := fun w => .rdOther (offField w) },
    { matchWord := 0x60000008#32, mask := 0xFF0000FF#32, build := fun w => .wrCtrl (dataField w) },
    { matchWord := 0x60000000#32, mask := 0xFF0000FF#32, build := fun w => .wrStatus (dataField w) },
    { matchWord := 0x60000004#32, mask := 0xFF0000FF#32, build := fun w => .wrResult (dataField w) },
    { matchWord := 0x60000000#32, mask := 0xFF000000#32, build := fun w => .wrOther (offField w) (dataField w) },
    { matchWord := 0x70000000#32, mask := 0xFFFFFFFF#32, build := fun _ => .cntClear } ]

/-- The reason for refusing a word that no row matches (R69, R70). -/
def refusalReason (w : Word) : DecodeRefusal :=
  match kindOf w with
  | some _ => .nonzeroMbz
  | none => .reservedKind

/-- The decoder, total on all 2^32 words (R66, R67, R70). -/
def decode (w : Word) : Decoded :=
  match opcodeRows.find? (rowMatches w) with
  | some r => .transaction (r.build w)
  | none => .refuse (refusalReason w)

/-- Bit 27 of format C for a polarity (R63). -/
def polBits : Polarity → Word
  | .rising => 0x08000000#32
  | .falling => 0x00000000#32

/-- Bits 23:8 of format B for a write's data (R64). -/
def dataBits (data : BitVec 16) : Word := data.setWidth 32 <<< 8

/-- The word of a transaction (R62 to R64; the words of R73). -/
def encode : Instr → Word
  | .reset => 0x10000000#32
  | .tick => 0x20000000#32
  | .capture pol tick => 0x30000000#32 ||| polBits pol ||| tick.setWidth 32
  | .service => 0x40000000#32
  | .rdStatus => 0x50000000#32
  | .rdResult => 0x50000004#32
  | .rdCtrl => 0x50000008#32
  | .rdOther off => 0x50000000#32 ||| off.setWidth 32
  | .wrCtrl data => 0x60000008#32 ||| dataBits data
  | .wrStatus data => 0x60000000#32 ||| dataBits data
  | .wrResult data => 0x60000004#32 ||| dataBits data
  | .wrOther off data => 0x60000000#32 ||| dataBits data ||| off.setWidth 32
  | .cntClear => 0x70000000#32

/-- The transaction the decoder reads from a table word `w` of `nbits` bits. Every transaction word is one 32-bit
word (R72) and is delivered whole (R43, R52), so no byte order enters; bits above `nbits` are 0. -/
def decodeTableWord (nbits w : Nat) : Option Instr :=
  if 2 ^ 32 ≤ w % 2 ^ nbits then none else (decode (BitVec.ofNat 32 (w % 2 ^ nbits))).instr?

end Sys2Proof
end

