-- ==== Sys2Proof/Config.lean ====
section
/-! DEFINITION. The implementation parameters (00_scope.md R6 to R9, 60_exceptions.md R147) and the free values. -/

namespace Sys2Proof

/-- How IRQ reaches a host core: "the interrupt line number, the priority, the vector and the enable in the host's
interrupt controller. These are `OPEN`" (R147, 92_eei_decisions.md D20). No rule of the block reads them, and the spec
gives them no type; log entry 19. -/
structure IrqRouting where
  /-- The interrupt line number in the host's interrupt controller. -/
  line : Nat
  /-- The priority of that line. -/
  priority : Nat
  /-- The vector of that line. -/
  vector : Nat
  /-- Whether the host's interrupt controller has that line enabled. -/
  enable : Bool
deriving DecidableEq, Repr, Inhabited

/-- The named parameters, which "the model takes as an argument" (R6 to R9; R147 with D20). They ride in the state's `cfg`
field and no transaction writes them (log entry 1). -/
structure Config where
  /-- `M`, the wrap modulus of the counter and of every tick value (R6). -/
  M : Nat
  /-- `W`, the width in bits of every tick-valued register (R7). -/
  W : Nat
  /-- `SEQ_CHECK`: whether the engine checks edge polarity (R8). -/
  seqCheck : Bool
  /-- `BASE`, the bus address of the consumer window (R9). -/
  base : Nat
  /-- The routing of IRQ in the host (R147). -/
  irqRouting : IrqRouting
deriving DecidableEq, Repr

/-- The ranges R6 and R7 give the parameters. -/
structure Config.WF (c : Config) : Prop where
  oneLeM : 1 ≤ c.M
  fits : c.M ≤ 2 ^ c.W
  oneLeW : 1 ≤ c.W
  wLe : c.W ≤ 24

/-- Free value: the routing of IRQ in the reference configuration (R147, OPEN). Nothing is known of it. Safe, log
entry 19. -/
opaque Config.openIrqRouting : IrqRouting

/-- The reference configuration `M = 65536`, `W = 16` (R6, R7). DESIGN CHOICE (unsafe, log entry 1): the spec names
no reference for SEQ_CHECK and BASE, and the model takes the source's baseline `false` and address 0. The routing of IRQ
is a free value (log entry 19). -/
def Config.reference : Config :=
  { M := 65536, W := 16, seqCheck := false, base := 0, irqRouting := Config.openIrqRouting }

/-- Free value: the draw from which `CNT` starts (R31, R171), reduced mod `M` where it is used. Nothing is known of
it. Safe, log entry 2. -/
opaque Config.startCount : Nat

/-- Free value: the draw a `RESULT` read shows while `READY = 0` (R101), the n-th draw at n, cut to `W` bits where
it is used. Nothing is known of it. Safe, log entry 3. -/
opaque Config.resultDraw : Nat → Nat

end Sys2Proof
end

