-- ==== Sys2Proof/Machine/State.lean ====
section
/-! DEFINITION. The machine's state (10_state.md, 70_reset_and_hazards.md R170 and R171), its stop reasons, and the
state at the start of a run. -/

namespace Sys2Proof.Machine

/-- The values of PHASE (R22). -/
inductive Phase where
  /-- `0`, the source's `awaiting_falling_edge = false`. -/
  | waitingForRising
  /-- `1`, the source's `awaiting_falling_edge = true`. -/
  | waitingForFalling
deriving DecidableEq, Repr

/-- The model fault codes (60_exceptions.md R140). They are values of the FAULT register; the outcome of a later
step is `Fault.halted`. Each is safe: the model stops where the source gives the chip no behaviour. -/
inductive FaultCode where
  /-- 1, raised by CAPTURE: an edge arrives while PENDING = 1 (R80). Safe. -/
  | edgeOverrun
  /-- 2, raised by CAPTURE: tick >= M (R80). Safe. -/
  | tickRange
  /-- 3, raised by RD_OTHER and WR_OTHER: an aligned offset with no register (R106). Safe. -/
  | busReservedOffset
  /-- 4, raised by RD_OTHER and WR_OTHER: off[1:0] != 0 (R44, R106). Safe. -/
  | busMisaligned
  /-- 5, raised by WR_STATUS and WR_RESULT (R105). Safe. -/
  | busWriteReadonly
  /-- 6, raised by WR_CTRL with a reserved bit set (R104). Safe. -/
  | ctrlReservedBits
  /-- 7, raised by a rule that reads a *none* value; unreachable (R36). Safe. -/
  | unwrittenRead
deriving DecidableEq, Repr

/-- What a raised fault records: "the pair (code, word)" (R28, R140). -/
structure FaultRecord where
  code : FaultCode
  word : Word
deriving DecidableEq, Repr

/-- The whole machine: the block (R22 to R27), the model-level state (R28 to R30), the environment's counter (R31),
the parameters (R6 to R9, R147) and two fields of the model's own. Tick values are naturals; that they fit `W` bits and lie
below `M` is part of the invariant (R36; log entry 9). -/
structure State where
  /-- The parameters M, W, SEQ_CHECK, BASE and the routing of IRQ (R147); no transaction writes them (log entries 1, 19). -/
  cfg : Config
  /-- PHASE, R22. -/
  phase : Phase
  /-- RISE, a tick value or *none*, R23. -/
  rise : Option Nat
  /-- WIDTH, a tick value or *none*, R24. -/
  width : Option Nat
  /-- PENDING, R25. -/
  pending : Bool
  /-- CAPT_VAL, a tick value or *none*, R26. -/
  captVal : Option Nat
  /-- CAPT_POL, a polarity or *none*, R26. -/
  captPol : Option Polarity
  /-- READY, R27. -/
  ready : Bool
  /-- FAULT, *none* or (code, word), R28. -/
  fault : Option FaultRecord
  /-- REFUSED, R29. -/
  refused : Bool
  /-- The response log, oldest response first, R30. -/
  log : List Word
  /-- CNT, the environment's counter, R31. -/
  cnt : Nat
  /-- The model's own: how many free RESULT widths have been drawn (log entry 3). -/
  draws : Nat
  /-- The model's own: the transaction words still to be delivered, the next one first (R14; log entry 7). -/
  script : List Word
deriving DecidableEq, Repr

/-- How a step stops. -/
inductive Fault where
  /-- Raised by every transaction and every step in a state whose FAULT register is set: "While it is set, no agent
  has a step" (R28, R141). It repeats the recorded pair. Safe. -/
  | halted (code : FaultCode) (word : Word)
deriving DecidableEq, Repr

/-- Why a step has no meaning. -/
inductive Refusal where
  /-- Raised by an arm of `exec` whose transaction has no meaning yet; no arm does. Safe. -/
  | notModelled (mnemonic : String)
  /-- Raised by `step` after the decoder refused a word: the script has ended as refused (R14, R29). Safe. -/
  | scriptRefused
deriving DecidableEq, Repr

/-- The outcome of a transaction or a step. -/
abbrev Result := Host.Outcome State Fault Refusal

/-- The start of a run for parameters `c` and counter value `cnt` (R171): the state a RESET leaves, FAULT *none*,
REFUSED false, the log empty, and the counter at a draw. -/
def State.start (c : Config) (cnt : Nat) : State :=
  { cfg := c, phase := .waitingForRising, rise := none, width := none, pending := false, captVal := none,
    captPol := none, ready := false, fault := none, refused := false, log := [], cnt := cnt, draws := 0, script := [] }

/-- The machine right after reset (R171) in the reference configuration (log entry 1), with CNT at a free value
in [0, M-1] (log entry 2). -/
def State.reset : State := State.start Config.reference (Config.startCount % Config.reference.M)

end Sys2Proof.Machine
end

