-- ==== Sys2Proof/Machine/Flags.lean ====
section
/-! DEFINITION. The status flags READY, PHASE and PENDING as bits (10_state.md R37), the register words built from
them (R32 to R34), and the interrupt output (60_exceptions.md R146). -/

namespace Sys2Proof.Machine

/-- PHASE as its bit: 0 = WAITING_FOR_RISING, 1 = WAITING_FOR_FALLING (R22). -/
def phaseBit : Phase → Bool
  | .waitingForRising => false
  | .waitingForFalling => true

/-- CAPT_POL as its bit: 1 = rising, 0 = falling (R26). -/
def polarityBit : Polarity → Bool
  | .rising => true
  | .falling => false

/-- `expected(0) = 1` (rising), `expected(1) = 0` (falling) (40_capture_engine.md R84). -/
def expectedPolarity : Phase → Polarity
  | .waitingForRising => .rising
  | .waitingForFalling => .falling

/-- A flag in one bit of a register. -/
def flagAt (b : Bool) (n : Nat) : Word := (BitVec.ofBool b).setWidth 32 <<< n

/-- STATUS: `zext_32({PENDING, PHASE, READY})` (R32, R100). -/
def statusWord (s : State) : Word :=
  flagAt s.pending 2 ||| flagAt (phaseBit s.phase) 1 ||| flagAt s.ready 0

/-- `zext_32` of a `W`-bit value: bits W-1:0 hold it and bits 31:W are 0 (R33, R101). -/
def tickBits (c : Config) (v : Nat) : Word := BitVec.ofNat 32 (v % 2 ^ c.W)

/-- RESULT with VALID in bit 31 and a tick value in bits W-1:0 (R33, R101). -/
def resultWord (c : Config) (valid : Bool) (v : Nat) : Word := flagAt valid 31 ||| tickBits c v

/-- CTRL reads `0x00000000` (R34, R102). -/
def ctrlWord : Word := 0x00000000#32

/-- `IRQ` is a level, equal to `PENDING` (R146), whatever its routing in the host (`Config.irqRouting`, R147). -/
def irq (s : State) : Bool := s.pending

/-- The number of a fault code (R140). -/
def faultNumber : FaultCode → Nat
  | .edgeOverrun => 1
  | .tickRange => 2
  | .busReservedOffset => 3
  | .busMisaligned => 4
  | .busWriteReadonly => 5
  | .ctrlReservedBits => 6
  | .unwrittenRead => 7

end Sys2Proof.Machine
end

