-- ==== Sys2Proof/Machine/Operands.lean ====
section
/-! DEFINITION. Operand assembly (30_encoding.md R65): every operand is unsigned, zero-extended and unscaled. -/

namespace Sys2Proof.Machine

/-- "`tick = zext(TICK)`, an integer in `[0, 2^24 - 1]`" (R65). -/
def tickOperand (tick : BitVec 24) : Nat := tick.toNat

/-- "`off = zext(OFF)`, an integer in `[0, 255]`" (R65). -/
def offOperand (off : BitVec 8) : Nat := off.toNat

/-- "`wdata = zext_32(DATA)`. So bits 31:16 of every written value are 0" (R65). -/
def wdataOperand (data : BitVec 16) : Word := data.setWidth 32

/-- `off[1:0] != 0`: the offset is not a multiple of 4 (20_memory.md R44). -/
def misaligned (off : BitVec 8) : Bool := offOperand off % 4 != 0

/-- `d[31:1] != 0` (R104). -/
def ctrlReservedSet (d : Word) : Bool := d.extractLsb' 1 31 != 0

/-- `d[0] = 1`, CTRL.ABORT (R34, R104). -/
def ctrlAbort (d : Word) : Bool := d.getLsbD 0

/-- The transaction that reads the register at an offset, `BusRead(off)` of R13 (rows 5 to 8 of R66). -/
def busReadInstr (off : BitVec 8) : Instr :=
  if off = 0x00#8 then .rdStatus
  else if off = 0x04#8 then .rdResult
  else if off = 0x08#8 then .rdCtrl
  else .rdOther off

/-- The transaction that writes the register at an offset, `BusWrite(off, v)` of R13 (rows 9 to 12 of R66). -/
def busWriteInstr (off : BitVec 8) (data : BitVec 16) : Instr :=
  if off = 0x08#8 then .wrCtrl data
  else if off = 0x00#8 then .wrStatus data
  else if off = 0x04#8 then .wrResult data
  else .wrOther off data

/-- The bus address of an offset of the window (00_scope.md R9, 20_memory.md R40). -/
def windowAddress (c : Config) (off : BitVec 8) : Nat := c.base + offOperand off

/-- The offset that a bus address has in the window, none outside the window's 256 bytes (R9, R40). -/
def windowOffset (c : Config) (address : Nat) : Option (BitVec 8) :=
  if c.base ≤ address ∧ address < c.base + 256 then some (BitVec.ofNat 8 (address - c.base)) else none

end Sys2Proof.Machine
end

