-- ==== Sys2Proof/Machine/Ops.lean ====
section
/-! DEFINITION. The named writes of the state elements, the guard every transaction stands under, raising a model
fault, reading a register that may be *none*, answering a read, and the width arithmetic. -/

namespace Sys2Proof.Machine

/-- `PHASE <- p`. -/
def State.setPhase (s : State) (p : Phase) : State := { s with phase := p }

/-- `RISE <- v`. -/
def State.setRise (s : State) (v : Option Nat) : State := { s with rise := v }

/-- `WIDTH <- v`. -/
def State.setWidth (s : State) (v : Option Nat) : State := { s with width := v }

/-- `PENDING <- b`. -/
def State.setPending (s : State) (b : Bool) : State := { s with pending := b }

/-- `CAPT_VAL <- v ; CAPT_POL <- p`. -/
def State.setCapture (s : State) (v : Option Nat) (p : Option Polarity) : State :=
  { s with captVal := v, captPol := p }

/-- `READY <- b`. -/
def State.setReady (s : State) (b : Bool) : State := { s with ready := b }

/-- `FAULT <- r`. -/
def State.setFault (s : State) (r : FaultRecord) : State := { s with fault := some r }

/-- `REFUSED` is set (R29). -/
def State.setRefused (s : State) : State := { s with refused := true }

/-- `log(resp)`: the response is appended to the response log (R30, R103). -/
def State.logResponse (s : State) (resp : Word) : State := { s with log := s.log ++ [resp] }

/-- `CNT <- n`. -/
def State.setCnt (s : State) (n : Nat) : State := { s with cnt := n }

/-- One free RESULT width has been used (log entry 3). -/
def State.countDraw (s : State) : State := { s with draws := s.draws + 1 }

/-- The words still to be delivered. -/
def State.setScript (s : State) (ws : List Word) : State := { s with script := ws }

/-- The guard of every transaction: "While [FAULT] is set, no agent has a step" (R28, R141). -/
def whileNoFault (s : State) (k : Result) : Result :=
  match s.fault with
  | some r => .fault (.halted r.code r.word)
  | none => k

/-- Taking the machine's one kind of exception, `raise Fault(code)` (R13, R141): "sets FAULT <- (code, word), where
word is the transaction word being executed. The transaction then has no other effect". There is no handler and no
return from it (R150); the next step finds FAULT set. -/
def raiseFault (code : FaultCode) (i : Instr) (s : State) : Result :=
  .next (s.setFault { code := code, word := encode i })

/-- Reading a register that may hold *none*: a *none* raises `Fault(UNWRITTEN_READ)` (R36, R81, R140). -/
def readWritten {α : Type} (o : Option α) (i : Instr) (s : State) (k : α → Result) : Result :=
  match o with
  | some v => k v
  | none => raiseFault .unwrittenRead i s

/-- A bus read answers: its response is appended to the log and nothing else happens (R103). -/
def answerRead (resp : Word) (s : State) : Result := .next (s.logResponse resp)

/-- The next free width, `draw d : W-bit unsigned` of R101, before it is cut to W bits (log entry 3). -/
def drawnWidth (s : State) : Nat := Config.resultDraw s.draws

/-- `ComputeWidth(r, f, M)` (40_capture_engine.md R86). -/
def computeWidth (r f M : Nat) : Nat := if f ≥ r then f - r else f + (M - r)

/-- ABORT: `PHASE`, `READY` and `PENDING` are set to 0 and nothing else changes (41_consumer_bus.md R104). -/
def State.abort (s : State) : State := ((s.setPhase .waitingForRising).setReady false).setPending false

/-- What RESET does to the block's state elements (70_reset_and_hazards.md R170). -/
def State.resetBlock (s : State) : State := ((s.abort.setRise none).setWidth none).setCapture none none

/-- An access to an offset with no register: misalignment is checked first (R106, R144). -/
def rejectOffset (off : BitVec 8) (i : Instr) (s : State) : Result :=
  if misaligned off then raiseFault .busMisaligned i s else raiseFault .busReservedOffset i s

end Sys2Proof.Machine
end

