-- ==== Sys2Proof/Machine/CaptureEngine.lean ====
section
/-! DEFINITION. CAPTURE and SERVICE (40_capture_engine.md R80 to R86). -/

namespace Sys2Proof.Machine

/-- CAPTURE (R80): TICK_RANGE is checked before EDGE_OVERRUN (R144); then the tick and the polarity are latched,
whatever SEQ_CHECK is, and PENDING is set. -/
def execCapture (pol : Polarity) (tick : BitVec 24) (s : State) : Result :=
  whileNoFault s
    (if s.cfg.M ≤ tickOperand tick then raiseFault .tickRange (.capture pol tick) s
     else if s.pending then raiseFault .edgeOverrun (.capture pol tick) s
     else .next ((s.setCapture (some (tickOperand tick)) (some pol)).setPending true))

/-- The rising branch of SERVICE (R82) for the accepted tick `t`. -/
def risingBranch (t : Nat) (s : State) : Result :=
  .next (((s.setPending false).setRise (some t)).setPhase .waitingForFalling)

/-- The result latch of the falling branch (R83): the width is stored with READY only while READY = 0, else it is
dropped (R85). -/
def State.latchWidth (s : State) (w : Nat) : State :=
  match s.ready with
  | true => s
  | false => (s.setWidth (some w)).setReady true

/-- The falling branch of SERVICE (R83) for the accepted tick `t`. -/
def fallingBranch (t : Nat) (s : State) : Result :=
  readWritten s.rise .service s fun r =>
    .next (((s.setPending false).latchWidth (computeWidth r t s.cfg.M)).setPhase .waitingForRising)

/-- The branch that PHASE selects for an accepted edge (R81). -/
def acceptEdge (t : Nat) (s : State) : Result :=
  match s.phase with
  | .waitingForRising => risingBranch t s
  | .waitingForFalling => fallingBranch t s

/-- SERVICE (R81): nothing happens with nothing pending. Under SEQ_CHECK an edge of the polarity that PHASE does not
expect is ignored: PENDING is cleared and nothing else changes (R84). Without SEQ_CHECK, CAPT_POL is not read (R84,
log entry 10). -/
def execService (s : State) : Result :=
  whileNoFault s
    (if s.pending then
       readWritten s.captVal .service s fun t =>
         if s.cfg.seqCheck then
           readWritten s.captPol .service s fun p =>
             if p = expectedPolarity s.phase then acceptEdge t s else .next (s.setPending false)
         else acceptEdge t s
     else .next s)

end Sys2Proof.Machine
end

