-- ==== Sys2Proof/Machine/ConsumerBus.lean ====
section
/-! DEFINITION. The consumer's reads and writes of the register window (41_consumer_bus.md R100 to R106). -/

namespace Sys2Proof.Machine

/-- RD_STATUS (R100): the read has no side effect. -/
def execRdStatus (s : State) : Result := whileNoFault s (answerRead (statusWord s) s)

/-- RD_RESULT (R101): with READY = 1 the response carries VALID and WIDTH, and READY is cleared in the same step; with
READY = 0 it carries VALID = 0 and a draw, and nothing changes but the log (and the model's count of draws). -/
def execRdResult (s : State) : Result :=
  whileNoFault s
    (if s.ready then
       readWritten s.width .rdResult s fun w => answerRead (resultWord s.cfg true w) (s.setReady false)
     else answerRead (resultWord s.cfg false (drawnWidth s)) s.countDraw)

/-- RD_CTRL (R102). -/
def execRdCtrl (s : State) : Result := whileNoFault s (answerRead ctrlWord s)

/-- RD_OTHER (R106): BUS_MISALIGNED, checked first, or BUS_RESERVED_OFFSET. -/
def execRdOther (off : BitVec 8) (s : State) : Result := whileNoFault s (rejectOffset off (.rdOther off) s)

/-- WR_CTRL (R104): a reserved bit set faults; bit 0 aborts; a write of 0 does nothing. -/
def execWrCtrl (data : BitVec 16) (s : State) : Result :=
  whileNoFault s
    (if ctrlReservedSet (wdataOperand data) then raiseFault .ctrlReservedBits (.wrCtrl data) s
     else if ctrlAbort (wdataOperand data) then .next s.abort
     else .next s)

/-- WR_STATUS (R105): STATUS is read-only. -/
def execWrStatus (data : BitVec 16) (s : State) : Result :=
  whileNoFault s (raiseFault .busWriteReadonly (.wrStatus data) s)

/-- WR_RESULT (R105): RESULT is read-only; in particular a write of 0 does not clear READY. -/
def execWrResult (data : BitVec 16) (s : State) : Result :=
  whileNoFault s (raiseFault .busWriteReadonly (.wrResult data) s)

/-- WR_OTHER (R106): BUS_MISALIGNED, checked first, or BUS_RESERVED_OFFSET. -/
def execWrOther (off : BitVec 8) (data : BitVec 16) (s : State) : Result :=
  whileNoFault s (rejectOffset off (.wrOther off data) s)

end Sys2Proof.Machine
end

