-- ==== Sys2Proof/Machine/ResetInput.lean ====
section
/-! DEFINITION. RESET (70_reset_and_hazards.md R170). -/

namespace Sys2Proof.Machine

/-- RESET (R170): the block's elements take their reset values; CNT, FAULT, REFUSED and the log stay. -/
def execReset (s : State) : Result := whileNoFault s (.next s.resetBlock)

end Sys2Proof.Machine
end

