-- ==== Sys2Proof/Machine/Timebase.lean ====
section
/-! DEFINITION. The environment's counter: TICK and CNT_CLEAR (42_timebase.md R120, R121), the capture source
(R122, R123) and the counter as a function of real time (R129, 70_reset_and_hazards.md R183). -/

namespace Sys2Proof.Machine

/-- TICK (R120): `CNT <- (CNT + 1) mod M`. No block state changes. -/
def execTick (s : State) : Result := whileNoFault s (.next (s.setCnt ((s.cnt + 1) % s.cfg.M)))

/-- CNT_CLEAR (R121): `CNT <- 0`. No block state changes. -/
def execCntClear (s : State) : Result := whileNoFault s (.next (s.setCnt 0))

/-- The capture of an edge in a run that models the counter: it "carries tick = CNT, the counter's value in the
state where the CAPTURE is taken" (R122). -/
def captureAtCnt (pol : Polarity) (s : State) : Instr := .capture pol (BitVec.ofNat 24 s.cnt)

/-- `n` ticks of period `tick` have been counted at an edge that arrives `t` nanoseconds after the count was 0, where
an edge that coincides with a tick may be ordered before or after it (R123, R183). -/
abbrev CountAt (tick t n : Nat) : Prop := n * tick ≤ t ∧ t ≤ (n + 1) * tick

/-- The nanoseconds that a width of `w` ticks stands for (R129). -/
def widthNanoseconds (tickNs w : Nat) : Nat := w * tickNs

end Sys2Proof.Machine
end

