-- ==== Sys2Proof/Machine/Dispatch.lean ====
section
/-! DEFINITION. One arm per transaction. -/

namespace Sys2Proof.Machine

/-- A transaction's outcome in a state. -/
def exec (i : Instr) (s : State) : Host.Outcome State Fault Refusal :=
  match i with
  | .reset => Sys2Proof.Machine.execReset s
  | .tick => Sys2Proof.Machine.execTick s
  | .capture pol tick => Sys2Proof.Machine.execCapture pol tick s
  | .service => Sys2Proof.Machine.execService s
  | .rdStatus => Sys2Proof.Machine.execRdStatus s
  | .rdResult => Sys2Proof.Machine.execRdResult s
  | .rdCtrl => Sys2Proof.Machine.execRdCtrl s
  | .rdOther off => Sys2Proof.Machine.execRdOther off s
  | .wrCtrl data => Sys2Proof.Machine.execWrCtrl data s
  | .wrStatus data => Sys2Proof.Machine.execWrStatus data s
  | .wrResult data => Sys2Proof.Machine.execWrResult data s
  | .wrOther off data => Sys2Proof.Machine.execWrOther off data s
  | .cntClear => Sys2Proof.Machine.execCntClear s

end Sys2Proof.Machine
end

