-- ==== Sys2Proof/Machine/Deliver.lean ====
section
/-! DEFINITION. Delivering a transaction word to the block (00_scope.md R14, 30_encoding.md R70, 10_state.md R29). -/

namespace Sys2Proof.Machine

/-- The guard of a script: no word is applied after a fault (R28, R141), and none after a refusal, since then "the
script ends refused" (R14, R29). -/
def whileScriptRuns (s : State) (k : Result) : Result :=
  whileNoFault s (if s.refused then .refused .scriptRefused else k)

/-- What a refused word does: it "sets REFUSED and ends the script as refused. It changes no block state" (R70). -/
def refuseWord (s : State) : Result := .next s.setRefused

/-- A word is decoded and its transaction executed, or it is refused (R14, R66, R70). -/
def deliver (w : Word) (s : State) : Result :=
  whileScriptRuns s
    (match decode w with
     | .transaction i => exec i s
     | .refuse _ => refuseWord s)

/-- No word is left to deliver: no agent moves (log entry 7). -/
def deliverNothing (s : State) : Result := whileScriptRuns s (.next s)

end Sys2Proof.Machine
end

