-- ==== Sys2Proof/Machine/Step.lean ====
section
/-! DEFINITION. One step of the machine: the next transaction word of the script is delivered. -/

namespace Sys2Proof.Machine

/-- One step: the next word of the script is taken and delivered to the block (00_scope.md R14, R15). With no word
left the script has completed, no agent moves and nothing changes (log entry 7). -/
def step (s : State) : Host.Outcome State Fault Refusal :=
  match s.script with
  | [] => deliverNothing s
  | w :: ws => deliver w (s.setScript ws)

/-- `s` with the word `w` (its low `nbits` bits) as the word that the next step delivers; the words after it stay
(log entry 7). -/
def State.withFetchWord (s : State) (nbits w : Nat) : State :=
  s.setScript (BitVec.ofNat 32 (w % 2 ^ nbits) :: s.script.tail)

end Sys2Proof.Machine
end

