-- ==== Sys2Proof/Machine/Agents.lean ====
section
/-! DEFINITION. The agents, the transactions each takes and when each is enabled (00_scope.md R15). -/

namespace Sys2Proof.Machine

/-- The four agents (R15); each appears exactly once (60_exceptions.md R155). -/
inductive Agent where
  | environment
  | engine
  | consumer
  | reset
deriving DecidableEq, Repr

/-- The agent that takes a transaction kind (30_encoding.md R60). -/
def kindAgent : Kind → Agent
  | .reset => .reset
  | .tick => .environment
  | .capture => .environment
  | .service => .engine
  | .busrd => .consumer
  | .buswr => .consumer
  | .cntClear => .environment

/-- When an agent is enabled: none while FAULT is set (R28); the engine only with a capture pending (R81); the others
always (R80, R120, R121, R170). -/
def agentEnabled (a : Agent) (s : State) : Bool :=
  s.fault.isNone && (match a with
    | .engine => s.pending
    | .environment => true
    | .consumer => true
    | .reset => true)

end Sys2Proof.Machine
end

