-- ==== Sys2Proof/Machine/Assembler.lean ====
section
/-! DEFINITION. The script syntax and the pseudo-transactions (30_encoding.md R73, R74). -/

namespace Sys2Proof.Machine

/-- A line of R73's syntax, its numbers not yet checked against their ranges. -/
inductive Asm where
  | reset
  | tick
  | captureRise (t : Nat)
  | captureFall (t : Nat)
  | service
  | rdStatus
  | rdResult
  | rdCtrl
  | rd (off : Nat)
  | wrCtrl (d : Nat)
  | wr (off d : Nat)
  | cntClear
deriving DecidableEq, Repr

/-- A pseudo-transaction of R74. -/
inductive Pseudo where
  | edgeRise (t : Nat)
  | edgeFall (t : Nat)
  | poll
  | consume
  | abort
  | ticks (n : Nat)
deriving DecidableEq, Repr

/-- "An assembler rejects an operand out of these ranges; it never truncates it" (R73). -/
def asmInRange : Asm → Bool
  | .captureRise t => t < 2 ^ 24
  | .captureFall t => t < 2 ^ 24
  | .rd off => off < 256
  | .wrCtrl d => d < 65536
  | .wr off d => off < 256 && d < 65536
  | .reset => true
  | .tick => true
  | .service => true
  | .rdStatus => true
  | .rdResult => true
  | .rdCtrl => true
  | .cntClear => true

/-- The word column of R73's table. -/
def asmBits : Asm → Word
  | .reset => 0x10000000#32
  | .tick => 0x20000000#32
  | .captureRise t => 0x38000000#32 ||| BitVec.ofNat 32 t
  | .captureFall t => 0x30000000#32 ||| BitVec.ofNat 32 t
  | .service => 0x40000000#32
  | .rdStatus => 0x50000000#32
  | .rdResult => 0x50000004#32
  | .rdCtrl => 0x50000008#32
  | .rd off => 0x50000000#32 ||| BitVec.ofNat 32 off
  | .wrCtrl d => 0x60000008#32 ||| (BitVec.ofNat 32 d <<< 8)
  | .wr off d => 0x60000000#32 ||| (BitVec.ofNat 32 d <<< 8) ||| BitVec.ofNat 32 off
  | .cntClear => 0x70000000#32

/-- The transaction a line names. -/
def asmInstr : Asm → Instr
  | .reset => .reset
  | .tick => .tick
  | .captureRise t => .capture .rising (BitVec.ofNat 24 t)
  | .captureFall t => .capture .falling (BitVec.ofNat 24 t)
  | .service => .service
  | .rdStatus => .rdStatus
  | .rdResult => .rdResult
  | .rdCtrl => .rdCtrl
  | .rd off => busReadInstr (BitVec.ofNat 8 off)
  | .wrCtrl d => .wrCtrl (BitVec.ofNat 16 d)
  | .wr off d => busWriteInstr (BitVec.ofNat 8 off) (BitVec.ofNat 16 d)
  | .cntClear => .cntClear

/-- The word a line assembles to, none where an operand is out of its range (R73). -/
def assemble (a : Asm) : Option Word := if asmInRange a then some (asmBits a) else none

/-- The expansion column of R74's table. -/
def expand : Pseudo → List Asm
  | .edgeRise t => [.captureRise t, .service]
  | .edgeFall t => [.captureFall t, .service]
  | .poll => [.rdStatus]
  | .consume => [.rdResult]
  | .abort => [.wrCtrl 1]
  | .ticks n => List.replicate n .tick

/-- The words of a list of lines, none if the assembler rejects one of them. -/
def assembleAll : List Asm → Option (List Word)
  | [] => some []
  | a :: as =>
    match assemble a, assembleAll as with
    | some w, some ws => some (w :: ws)
    | _, _ => none

/-- The token that has been collected, in reading order, if it is not empty. -/
def flushToken (acc : List Char) : List (List Char) := if acc.isEmpty then [] else [acc.reverse]

/-- A line's tokens: blanks separate, a comma is a token of its own (R73; log entry 15). -/
def tokensOf : List Char → List Char → List (List Char)
  | [], acc => flushToken acc
  | c :: cs, acc =>
    if c = ' ' ∨ c = '\t' then flushToken acc ++ tokensOf cs []
    else if c = ',' then flushToken acc ++ [','] :: tokensOf cs []
    else tokensOf cs (c :: acc)

/-- A digit's value in a base. -/
def digitValue (base : Nat) (c : Char) : Option Nat :=
  let n := c.toNat
  let v := if 48 ≤ n ∧ n ≤ 57 then n - 48 else if 97 ≤ n ∧ n ≤ 102 then n - 87 else if 65 ≤ n ∧ n ≤ 70 then n - 55 else base
  if v < base then some v else none

/-- Digits read in a base, after the value read so far. -/
def digitsValue (base : Nat) : List Char → Nat → Option Nat
  | [], v => some v
  | c :: cs, v =>
    match digitValue base c with
    | some d => digitsValue base cs (v * base + d)
    | none => none

/-- "Numbers are decimal, or hexadecimal with a 0x prefix" (R73). -/
def numberOf : List Char → Option Nat
  | '0' :: 'x' :: c :: cs => digitsValue 16 (c :: cs) 0
  | c :: cs => digitsValue 10 (c :: cs) 0
  | [] => none

/-- The lines that a syntax without operand stands for (R73, R74). -/
def plainLines : List (List (List Char) × List Asm) :=
  [ ([['r', 'e', 's', 'e', 't']], [.reset]),
    ([['t', 'i', 'c', 'k']], [.tick]),
    ([['s', 'e', 'r', 'v', 'i', 'c', 'e']], [.service]),
    ([['r', 'd'], ['s', 't', 'a', 't', 'u', 's']], [.rdStatus]),
    ([['r', 'd'], ['r', 'e', 's', 'u', 'l', 't']], [.rdResult]),
    ([['r', 'd'], ['c', 't', 'r', 'l']], [.rdCtrl]),
    ([['c', 'n', 't', '_', 'c', 'l', 'e', 'a', 'r']], [.cntClear]),
    ([['p', 'o', 'l', 'l']], expand .poll),
    ([['c', 'o', 'n', 's', 'u', 'm', 'e']], expand .consume),
    ([['a', 'b', 'o', 'r', 't']], expand .abort) ]

/-- The lines that a syntax with one number stands for: the tokens before the number, and what they make of it. -/
def numberLines : List (List (List Char) × (Nat → List Asm)) :=
  [ ([['c', 'a', 'p', 't', 'u', 'r', 'e'], ['r', 'i', 's', 'e'], [',']], fun t => [.captureRise t]),
    ([['c', 'a', 'p', 't', 'u', 'r', 'e'], ['f', 'a', 'l', 'l'], [',']], fun t => [.captureFall t]),
    ([['e', 'd', 'g', 'e'], ['r', 'i', 's', 'e'], [',']], fun t => expand (.edgeRise t)),
    ([['e', 'd', 'g', 'e'], ['f', 'a', 'l', 'l'], [',']], fun t => expand (.edgeFall t)),
    ([['w', 'r'], ['c', 't', 'r', 'l'], [',']], fun d => [.wrCtrl d]),
    ([['r', 'd']], fun off => [.rd off]),
    ([['t', 'i', 'c', 'k', 's']], fun n => expand (.ticks n)) ]

/-- `wr <off>, <d>`, the one syntax with two numbers (R73). -/
def writeLine : List (List Char) → Option (List Asm)
  | [['w', 'r'], off, [','], d] =>
    match numberOf off, numberOf d with
    | some o, some v => some [.wr o v]
    | _, _ => none
  | _ => none

/-- The lines a syntax with one number stands for, if the last token is a number and the tokens before it are known. -/
def numberLine (ts : List (List Char)) : Option (List Asm) :=
  match numberLines.find? (fun r => r.1 == ts.dropLast), ts.getLast? with
  | some r, some t => (numberOf t).map r.2
  | _, _ => none

/-- The lines that tokens stand for; no token at all is an empty line. -/
def asmOfTokens (ts : List (List Char)) : Option (List Asm) :=
  if ts.isEmpty then some []
  else match plainLines.find? (fun r => r.1 == ts) with
    | some r => some r.2
    | none => (numberLine ts).orElse fun _ => writeLine ts

/-- One line of a script's text; "`;` starts a comment" (R73). -/
def parseLine (cs : List Char) : Option (List Asm) := asmOfTokens (tokensOf (cs.takeWhile (· != ';')) [])

/-- The words of a script's text, one transaction per line (R73); none if the assembler rejects a line. -/
def assembleText : List (List Char) → Option (List Word)
  | [] => some []
  | l :: ls =>
    match (parseLine l).bind assembleAll, assembleText ls with
    | some ws, some rest => some (ws ++ rest)
    | _, _ => none

end Sys2Proof.Machine
end

