-- ==== Sys2Proof/Machine/HostConversion.lean ====
section
/-! DEFINITION. The host's side of the interface (60_exceptions.md R159, R162, R163): not part of the block (00_scope.md
R5), given for the rules and vectors that speak of it. -/

namespace Sys2Proof.Machine

/-- The host's precondition for a cycle: `PHASE = 0` and `PENDING = 0` (R159). -/
structure Armed (s : State) : Prop where
  rising : s.phase = .waitingForRising
  idle : s.pending = false

/-- `SPEED_M_PER_S * elapsed_ns`, the product that must not overflow (R162, R163). -/
def speedProduct (speed tickNs w : Nat) : Nat := speed * widthNanoseconds tickNs w

/-- `distance_cm`, with truncating division on unbounded integers (R162). -/
def distanceCm (speed tickNs w : Nat) : Nat := speedProduct speed tickNs w / (2 * 10 ^ 7)

/-- What the host takes from a RESULT response: the width "only from a response with bit 31 = 1" (R158). -/
def hostWidth (c : Config) (resp : Word) : Option Nat :=
  if resp.getLsbD 31 then some (resp.toNat % 2 ^ c.W) else none

end Sys2Proof.Machine
end

