-- ==== Sys2Proof/Machine/Script.lean ====
section
/-! DEFINITION. Lists of transactions run in order, and scripts with their ends and observations (00_scope.md R14). -/

namespace Sys2Proof.Machine

/-- The transactions of the list in order, each "from the state the previous one left" (R14): a finite run, or what a
script does, which may also hold a SERVICE with nothing pending (R81). Runs proper, the infinite ones too, are Run. -/
def runAll : List Instr → State → Result
  | [], s => .next s
  | i :: is, s =>
    match exec i s with
    | .next t => runAll is t
    | .fault f => .fault f
    | .refused r => .refused r

/-- How many transactions of a run are taken in a way that `p` marks, seen from the state each is taken in. -/
def countAlong (p : Instr → State → Bool) : List Instr → State → Nat
  | [], _ => 0
  | i :: is, s =>
    (if p i s then 1 else 0) +
      match exec i s with
      | .next t => countAlong p is t
      | .fault _ => 0
      | .refused _ => 0

/-- The number of TICKs in a run. -/
def tickCount (is : List Instr) : Nat := is.count .tick

/-- A TICK that wraps the counter: "the counter resetting to 0 after reaching its maximum value M-1" (R120). -/
def wrapsHere (i : Instr) (s : State) : Bool := i == .tick && s.cnt + 1 == s.cfg.M

/-- A script: the words are applied in order; after a fault or a refusal "the remaining words are not applied" (R14). -/
def runWords : List Word → State → State
  | [], s => s
  | w :: ws, s =>
    match deliver w s with
    | .next t => runWords ws t
    | .fault _ => s
    | .refused _ => s

/-- The three ends of a script (R14). -/
inductive EndKind where
  | completed
  | faulted
  | refused
deriving DecidableEq, Repr

/-- The end that a script's final state shows (R14, R28, R29). -/
def endKind (s : State) : EndKind :=
  if s.fault.isSome then .faulted else if s.refused then .refused else .completed

/-- The observation of a script: "its end kind, its final state, and the list of bus-read responses" (R14). -/
structure Observation where
  ending : EndKind
  final : State
  responses : List Word
deriving DecidableEq, Repr

/-- The observation of the script `ws` from `s`. -/
def observe (ws : List Word) (s : State) : Observation :=
  { ending := endKind (runWords ws s), final := runWords ws s, responses := (runWords ws s).log }

end Sys2Proof.Machine
end

