-- ==== Sys2Proof/Machine/Run.lean ====
section
/-! DEFINITION. Runs, finite and infinite, each transaction taken by an enabled agent (00_scope.md R14, R15), and the
weak fairness of the engine (70_reset_and_hazards.md R185). A run is no part of the state: the script delivers its
finite beginnings (log entries 7 and 18). -/

namespace Sys2Proof.Machine

/-- "A finite or infinite sequence of transactions" (R14). -/
inductive Run where
  | finite (is : List Instr)
  | infinite (tr : Nat → Instr)

/-- The transaction that comes after `n` others, if the sequence is that long. -/
def Run.nth : Run → Nat → Option Instr
  | .finite is, n => is[n]?
  | .infinite tr, n => some (tr n)

/-- The sequence's first `n` transactions, or all it has. -/
def Run.first : Run → Nat → List Instr
  | .finite is, n => is.take n
  | .infinite tr, n => (List.range n).map tr

/-- What the first `n` transactions leave, each taken "from the state the previous one left" (R14). -/
def Run.after (r : Run) (s : State) (n : Nat) : Result := runAll (r.first n) s

/-- The sequence is a run from `s`: each of its transactions is one of the opcode map's (R60, log entry 17) and is taken
by an agent that is enabled in the state the previous one left (R14, R15). A run may end with the transaction that
raises a fault; none is taken after it (R28). -/
def Run.TakenFrom (r : Run) (s : State) : Prop :=
  ∀ n i, r.nth n = some i →
    i.wellFormed = true ∧ ∃ u v, r.after s n = .next u ∧ agentEnabled (kindAgent i.kind) u = true ∧ exec i u = .next v

/-- The weak fairness of R185 for an infinite run: at no point does the engine stay enabled for ever without taking
SERVICE (log entry 18). -/
def WeaklyFair (tr : Nat → Instr) (s : State) : Prop :=
  ∀ n, ∃ m, n ≤ m ∧
    (tr m = .service ∨ ∃ u, (Run.infinite tr).after s m = .next u ∧ agentEnabled .engine u = false)

end Sys2Proof.Machine
end

