-- ==== Sys2Proof/Safety.lean ====
section
/-! DEFINITION. What counts as a good state and a good run, and the terms the statements use. -/

namespace Sys2Proof.Machine

/-- A good state: FAULT is *none* and no word was refused (R28: "A state with FAULT set is never a good final
state"). -/
structure State.Good (s : State) : Prop where
  noFault : s.fault = none
  notRefused : s.refused = false

/-- A register that is *none* or holds a tick value below M (R36 d). -/
def TickBelow (M : Nat) (o : Option Nat) : Prop := ∀ v ∈ o, v < M

/-- The invariant of the reachable states: R36 (a) to (d), with the ranges of the parameters (R6, R7) and of CNT
(R31). -/
structure State.Inv (s : State) : Prop where
  params : s.cfg.WF
  cntBelow : s.cnt < s.cfg.M
  /-- R36 (a). -/
  riseHeld : s.phase = .waitingForFalling → s.rise ≠ none
  /-- R36 (b). -/
  widthHeld : s.ready = true → s.width ≠ none
  /-- R36 (c), CAPT_VAL. -/
  captValHeld : s.pending = true → s.captVal ≠ none
  /-- R36 (c), CAPT_POL. -/
  captPolHeld : s.pending = true → s.captPol ≠ none
  /-- R36 (d), RISE. -/
  riseBelow : TickBelow s.cfg.M s.rise
  /-- R36 (d), WIDTH. -/
  widthBelow : TickBelow s.cfg.M s.width
  /-- R36 (d), CAPT_VAL. -/
  captValBelow : TickBelow s.cfg.M s.captVal

/-- A transaction and its word name each other (R66, R73). -/
abbrev SpelledBy (i : Instr) (w : Word) : Prop := encode i = w ∧ decode w = .transaction i

/-- A BUSRD transaction (R60): the only ones that append to the response log (R103). -/
def isBusRead (i : Instr) : Bool := i.kind == .busrd

/-- The write that acts as ABORT (R104). -/
def isAbort : Instr → Bool
  | .wrCtrl data => !ctrlReservedSet (wdataOperand data) && ctrlAbort (wdataOperand data)
  | _ => false

/-- The accepted edge of R81: an edge is pending and, under SEQ_CHECK, it has the polarity that PHASE expects (R84). -/
def edgeAccepted (s : State) : Bool :=
  s.pending && (!s.cfg.seqCheck || s.captPol == some (expectedPolarity s.phase))

/-- A SERVICE that latches a width: the falling branch taken while READY = 0 (R83). -/
def latchesHere (i : Instr) (s : State) : Bool :=
  i == .service && edgeAccepted s && s.phase == .waitingForFalling && !s.ready

/-- A RESULT read that answers VALID = 1 (R101). -/
def deliversHere (i : Instr) (s : State) : Bool := i == .rdResult && s.ready

/-- An ABORT or RESET that discards an unread result (R104, R170). -/
def discardsHere (i : Instr) (s : State) : Bool := (isAbort i || i == .reset) && s.ready

/-- Transactions that neither touch the capture path, nor the counter's continuity, nor fault: ticks, the reads of the
three registers and a write of 0 to CTRL. They may stand between the edges of a measured pulse (R124). -/
def quiet : Instr → Bool
  | .tick => true
  | .rdStatus => true
  | .rdResult => true
  | .rdCtrl => true
  | .wrCtrl data => data == 0#16
  | _ => false

/-- A transaction that may stand between the two captures of a pulse: a quiet one, the engine's step, or a clear of the
counter (R128). -/
def insidePulse (i : Instr) : Bool := quiet i || i == .service || i == .cntClear

/-- A pulse measured in a run that models the counter (R122, R124): from an armed block without an unread result, a
rising edge is captured at the counter's value, `seg` runs and holds the engine's step, a falling edge is captured at
the counter's value, `rest` runs, and the engine serves it. `u` is the state of the falling edge, `t` the last one. -/
structure MeasuredPulse (s : State) (seg rest : List Instr) (u t : State) : Prop where
  inv : s.Inv
  noFault : s.fault = none
  armed : Armed s
  noResult : s.ready = false
  segInside : seg.all insidePulse = true
  segServed : Instr.service ∈ seg
  restQuiet : rest.all quiet = true
  rising : runAll (captureAtCnt .rising s :: seg) s = .next u
  falling : runAll (captureAtCnt .falling u :: (rest ++ [.service])) u = .next t

/-- A run that keeps the contract of the environment and of the host: no second CAPTURE before a SERVICE (R176), ticks
below M (R80), and no access that faults (R158). The Bool says whether a capture is pending. -/
def keepsContract (M : Nat) : Bool → List Instr → Bool
  | _, [] => true
  | p, i :: is =>
    match i with
    | .reset => keepsContract M false is
    | .tick => keepsContract M p is
    | .capture _ tick => !p && decide (tickOperand tick < M) && keepsContract M true is
    | .service => keepsContract M false is
    | .rdStatus => keepsContract M p is
    | .rdResult => keepsContract M p is
    | .rdCtrl => keepsContract M p is
    | .rdOther _ => false
    | .wrCtrl data =>
      !ctrlReservedSet (wdataOperand data) && keepsContract M (p && !ctrlAbort (wdataOperand data)) is
    | .wrStatus _ => false
    | .wrResult _ => false
    | .wrOther _ _ => false
    | .cntClear => keepsContract M p is

/-- Two states that no transaction can tell apart: equal but for RISE outside WAITING_FOR_FALLING, WIDTH while READY = 0
and the capture register while PENDING = 0, "which no transaction can observe before they are written again" (R170). -/
structure SameObservable (s t : State) : Prop where
  cfg : s.cfg = t.cfg
  phase : s.phase = t.phase
  ready : s.ready = t.ready
  pending : s.pending = t.pending
  fault : s.fault = t.fault
  refused : s.refused = t.refused
  log : s.log = t.log
  cnt : s.cnt = t.cnt
  draws : s.draws = t.draws
  script : s.script = t.script
  rise : s.phase = .waitingForFalling → s.rise = t.rise
  width : s.ready = true → s.width = t.width
  captVal : s.pending = true → s.captVal = t.captVal
  captPol : s.pending = true → s.captPol = t.captPol

end Sys2Proof.Machine
end

