-- ==== Sys2Proof/Certificates/Slice0/Obligations.lean ====
section
/-! DEFINITION. The statements for the provers. Each says which rule of the spec it formalises. -/

open Sys2Proof Sys2Proof.Machine

/-! ### The transaction word (30_encoding.md) -/

/-- R75: the worked encodings, assembled and decoded, and the two refused words. -/
def Obligations.WorkedEncodingsDecode : Prop :=
  (assemble (.captureRise 100) = some 0x38000064#32 ∧ decode 0x38000064#32 = .transaction (.capture .rising 100#24)) ∧
  (assemble (.captureFall 1100) = some 0x3000044C#32 ∧ decode 0x3000044C#32 = .transaction (.capture .falling 1100#24)) ∧
  (assemble (.captureRise 65000) = some 0x3800FDE8#32 ∧
    decode 0x3800FDE8#32 = .transaction (.capture .rising 65000#24)) ∧
  (assemble (.captureFall 500) = some 0x300001F4#32 ∧ decode 0x300001F4#32 = .transaction (.capture .falling 500#24)) ∧
  (assemble (.wrCtrl 1) = some 0x60000108#32 ∧ decode 0x60000108#32 = .transaction (.wrCtrl 1#16)) ∧
  (assemble .rdResult = some 0x50000004#32 ∧ decode 0x50000004#32 = .transaction .rdResult) ∧
  decode 0x31000000#32 = .refuse .nonzeroMbz ∧
  decode 0x80000000#32 = .refuse .reservedKind

/-- Decode and encode agree: no bit of an encoding is dropped, for every transaction and every operand (R61 to R67). -/
def Obligations.DecodeOfEncodeIsTheTransaction : Prop :=
  ∀ i : Instr, i.wellFormed = true → decode (encode i) = .transaction i

/-- Every word has one meaning: the transaction read from a word is well-formed and its word is that word again (R67),
so the word a fault records is the word that was delivered (R140). -/
def Obligations.EncodeOfDecodeIsTheWord : Prop :=
  ∀ (w : Word) (i : Instr), decode w = .transaction i → encode i = w ∧ i.wellFormed = true

/-- R67: the only rows of the opcode map that overlap are 8 with 5 to 7 and 12 with 9 to 11 (counted from 1). -/
def Obligations.RowsOverlapOnlyAtTheOtherOffsets : Prop :=
  ∀ (w : Word) (j k : Fin 13), j < k → rowMatches w opcodeRows[j] = true → rowMatches w opcodeRows[k] = true →
    (k = 7 ∧ (j = 4 ∨ j = 5 ∨ j = 6)) ∨ (k = 11 ∧ (j = 8 ∨ j = 9 ∨ j = 10))

/-- R69, R70: the decoder is total; it refuses with RESERVED_KIND exactly the words of a reserved KIND, with NONZERO_MBZ
exactly the others with a must-be-zero bit set, and reads every other word as a transaction of its kind. A refusal sets
REFUSED and changes nothing else. -/
def Obligations.RefusedExactlyForReservedKindOrNonzeroBit : Prop :=
  ∀ w : Word,
    (kindOf w = none ↔ w.field 31 28 = 0 ∨ 8 ≤ w.field 31 28) ∧
    (kindOf w = none → decode w = .refuse .reservedKind) ∧
    (∀ k, kindOf w = some k → w &&& mbzMask k ≠ 0#32 → decode w = .refuse .nonzeroMbz) ∧
    (∀ k, kindOf w = some k → w &&& mbzMask k = 0#32 → ∃ i, decode w = .transaction i ∧ i.kind = k) ∧
    (∀ (r : DecodeRefusal) (s : State), decode w = .refuse r → s.Good →
      deliver w s = .next { s with refused := true } ∧ endKind { s with refused := true } = .refused)

/-- R65: every operand is the unsigned value of its field; no check is made of it against M, W or the register map. -/
def Obligations.OperandsAreTheUnsignedFields : Prop :=
  ∀ w : Word,
    (∀ pol tick, decode w = .transaction (.capture pol tick) →
      tickOperand tick = w.field 23 0 ∧ (pol = .rising ↔ w.field 27 27 = 1)) ∧
    (∀ off, decode w = .transaction (.rdOther off) → offOperand off = w.field 7 0) ∧
    (∀ data, decode w = .transaction (.wrCtrl data) → (wdataOperand data).toNat = w.field 23 8) ∧
    (∀ data, decode w = .transaction (.wrStatus data) → (wdataOperand data).toNat = w.field 23 8) ∧
    (∀ data, decode w = .transaction (.wrResult data) → (wdataOperand data).toNat = w.field 23 8) ∧
    (∀ off data, decode w = .transaction (.wrOther off data) →
      offOperand off = w.field 7 0 ∧ (wdataOperand data).toNat = w.field 23 8)

/-- R73: a line with its operands in range assembles to a word that the decoder reads as the transaction the line names;
a line with an operand out of range is rejected. -/
def Obligations.AssembledLinesDecode : Prop :=
  ∀ a : Asm,
    (asmInRange a = true → ∃ w, assemble a = some w ∧ decode w = .transaction (asmInstr a)) ∧
    (asmInRange a = false → assemble a = none)

/-! ### Capture and service (40_capture_engine.md) -/

/-- R80: CAPTURE latches the tick and the polarity and sets PENDING; it faults TICK_RANGE first, then EDGE_OVERRUN. -/
def Obligations.CaptureLatchesOrFaults : Prop :=
  ∀ (s : State) (pol : Polarity) (tick : BitVec 24), s.fault = none →
    agentEnabled .environment s = true ∧
    (tick.toNat < s.cfg.M → s.pending = false →
      exec (.capture pol tick) s =
        .next { s with captVal := some tick.toNat, captPol := some pol, pending := true }) ∧
    (s.cfg.M ≤ tick.toNat →
      exec (.capture pol tick) s = .next { s with fault := some ⟨.tickRange, encode (.capture pol tick)⟩ }) ∧
    (tick.toNat < s.cfg.M → s.pending = true →
      exec (.capture pol tick) s = .next { s with fault := some ⟨.edgeOverrun, encode (.capture pol tick)⟩ })

/-- R82: an accepted edge in WAITING_FOR_RISING is recorded in RISE and PHASE becomes 1; READY and WIDTH, and everything
else but PENDING, are unchanged. -/
def Obligations.ServiceRisingBranchRecordsTheEdge : Prop :=
  ∀ (s : State) (t : Nat), s.fault = none → edgeAccepted s = true → s.captVal = some t →
    s.phase = .waitingForRising →
    exec .service s = .next { s with pending := false, rise := some t, phase := .waitingForFalling }

/-- R83, R85: an accepted edge in WAITING_FOR_FALLING returns PHASE to 0; the width is latched with READY while READY = 0
and dropped while READY = 1; it lies in [0, M-1]. Everything else but PENDING is unchanged. -/
def Obligations.ServiceFallingBranchLatchesOrDropsTheWidth : Prop :=
  ∀ (s : State) (r t : Nat), s.fault = none → edgeAccepted s = true → s.captVal = some t →
    s.phase = .waitingForFalling → s.rise = some r → r < s.cfg.M → t < s.cfg.M →
    computeWidth r t s.cfg.M ≤ s.cfg.M - 1 ∧
    (s.ready = false →
      exec .service s = .next { s with pending := false, width := some (computeWidth r t s.cfg.M), ready := true, phase := .waitingForRising }) ∧
    (s.ready = true →
      exec .service s = .next { s with pending := false, phase := .waitingForRising })

/-- R84, first part: with SEQ_CHECK, SERVICE of an edge of the polarity that PHASE does not expect clears PENDING and
changes nothing else. -/
def Obligations.ServiceIgnoresAnEdgeOutOfSequence : Prop :=
  ∀ (s : State) (t : Nat) (p : Polarity), s.fault = none → s.pending = true → s.cfg.seqCheck = true →
    s.captVal = some t → s.captPol = some p → p ≠ expectedPolarity s.phase →
    exec .service s = .next { s with pending := false }

/-- R84, second part: without SEQ_CHECK the polarity of the captured edge is not read. SERVICE leaves it where it is and
does the same whatever it is. -/
def Obligations.PolarityIsNotReadWithoutTheCheck : Prop :=
  ∀ (s t : State) (p : Option Polarity), s.cfg.seqCheck = false → exec .service s = .next t →
    exec .service { s with captPol := p } = .next { t with captPol := p }

/-- R81, R143: SERVICE with nothing pending changes nothing and raises nothing. -/
def Obligations.ServiceWithNothingPendingChangesNothing : Prop :=
  ∀ s : State, s.fault = none → s.pending = false →
    exec .service s = .next s ∧ agentEnabled .engine s = false

/-- R87: ComputeWidth is the difference mod M, in [0, M-1], so it fits in W bits, and so does every intermediate value of
R86. -/
def Obligations.ComputeWidthIsTheDifferenceModM : Prop :=
  ∀ r f M : Nat, r < M → f < M →
    (computeWidth r f M : Int) = ((f : Int) - r) % M ∧ computeWidth r f M ≤ M - 1 ∧
    (∀ W, M ≤ 2 ^ W → computeWidth r f M < 2 ^ W) ∧
    (f < r → 1 ≤ r ∧ M - r ≤ M - 1 ∧ f + (M - r) ≤ M - 1)

/-- R88: the W-bit wrapping subtraction equals ComputeWidth when M = 2^W; when M < 2^W it differs for every pair of
captures that wraps, for example 900 and 100 with M = 1000 and W = 16. -/
def Obligations.WrappingSubtractionOnlyForAFullModulus : Prop :=
  (∀ W r f : Nat, r < 2 ^ W → f < 2 ^ W →
    (BitVec.ofNat W f - BitVec.ofNat W r).toNat = computeWidth r f (2 ^ W)) ∧
  (∀ W M r f : Nat, M < 2 ^ W → r < M → f < r →
    (BitVec.ofNat W f - BitVec.ofNat W r).toNat ≠ computeWidth r f M) ∧
  computeWidth 900 100 1000 = 200 ∧ (BitVec.ofNat 16 100 - BitVec.ofNat 16 900).toNat = 64736

/-- R89: two captures of the same value give width 0; the largest width M-1 is reached. -/
def Obligations.WidthCornersAreZeroAndTheLargest : Prop :=
  ∀ M : Nat, 1 ≤ M →
    (∀ r, computeWidth r r M = 0) ∧ (∀ r f, r < M → f < M → computeWidth r f M ≤ M - 1) ∧
    computeWidth 0 (M - 1) M = M - 1 ∧ (2 ≤ M → computeWidth 1 0 M = M - 1)

/-- R90 (P4): every SERVICE that accepts an edge flips PHASE; ABORT and RESET set PHASE and READY to 0; every other
transaction leaves PHASE; READY rises only in the falling branch. -/
def Obligations.PhaseAlternatesOnAcceptedEdgesOnly : Prop :=
  ∀ (i : Instr) (s t : State), exec i s = .next t → t.fault = none →
    (i = .service → edgeAccepted s = true → t.phase ≠ s.phase) ∧
    (isAbort i = true ∨ i = .reset → t.phase = .waitingForRising ∧ t.ready = false) ∧
    (¬ (i = .service ∧ edgeAccepted s = true) → ¬ (isAbort i = true ∨ i = .reset) → t.phase = s.phase) ∧
    (s.ready = false → t.ready = true → latchesHere i s = true)

/-- R91: under SEQ_CHECK a pulse starts only at a rising edge and a width is latched only at a falling edge. -/
def Obligations.CheckedPulsesRunFromRisingToFalling : Prop :=
  ∀ (i : Instr) (s t : State), s.cfg.seqCheck = true → exec i s = .next t →
    (s.phase = .waitingForRising → t.phase = .waitingForFalling → i = .service ∧ s.captPol = some .rising) ∧
    (t.width ≠ s.width → t.width ≠ none →
      i = .service ∧ s.captPol = some .falling ∧ s.phase = .waitingForFalling)

/-! ### The consumer's bus (41_consumer_bus.md) -/

/-- R100, R32: RD_STATUS answers {PENDING, PHASE, READY} zero-extended, appends it to the log and changes nothing else. -/
def Obligations.ReadStatusShowsTheFlags : Prop :=
  SpelledBy .rdStatus 0x50000000#32 ∧
  ∀ s : State, s.fault = none →
    ∃ resp : Word, exec .rdStatus s = .next { s with log := s.log ++ [resp] } ∧
      resp.getLsbD 0 = s.ready ∧ (resp.getLsbD 1 = true ↔ s.phase = .waitingForFalling) ∧
      resp.getLsbD 2 = s.pending ∧ resp.field 31 3 = 0

/-- R101, R33: RD_RESULT with READY = 1 answers VALID = 1 with WIDTH and clears READY. -/
def Obligations.ReadResultDeliversTheWidthAndClearsReady : Prop :=
  SpelledBy .rdResult 0x50000004#32 ∧
  ∀ (s : State) (w : Nat), s.fault = none → s.cfg.WF → s.ready = true → s.width = some w → w < s.cfg.M →
    exec .rdResult s = .next { s with log := s.log ++ [0x80000000#32 ||| BitVec.ofNat 32 w], ready := false } ∧
    hostWidth s.cfg (0x80000000#32 ||| BitVec.ofNat 32 w) = some w

/-- R101: RD_RESULT with READY = 0 answers VALID = 0, zero bits 30:W and a width of which nothing is said; nothing else
changes (but the model's count of draws). It holds for every value of the free width (log entry 3). -/
def Obligations.ReadResultWithoutAResultAnswersADraw : Prop :=
  ∀ s : State, s.fault = none → s.cfg.WF → s.ready = false →
    ∃ d, d < 2 ^ s.cfg.W ∧
      exec .rdResult s = .next { s with log := s.log ++ [BitVec.ofNat 32 d], draws := s.draws + 1 } ∧
      hostWidth s.cfg (BitVec.ofNat 32 d) = none

/-- R102, R34: RD_CTRL answers 0 in every state and has no side effect. -/
def Obligations.ReadCtrlAnswersZero : Prop :=
  SpelledBy .rdCtrl 0x50000008#32 ∧
  ∀ s : State, s.fault = none → exec .rdCtrl s = .next { s with log := s.log ++ [0x00000000#32] }

/-- R104: WR_CTRL with a bit of 31:1 set faults; a write of 1 is ABORT, which sets PHASE, READY and PENDING to 0 and changes
nothing else, after which the block is armed (R159) and STATUS reads 0; a write of 0 changes nothing. -/
def Obligations.WriteCtrlAbortsOrFaults : Prop :=
  ∀ (s : State) (data : BitVec 16), s.fault = none →
    (2 ≤ data.toNat →
      exec (.wrCtrl data) s = .next { s with fault := some ⟨.ctrlReservedBits, encode (.wrCtrl data)⟩ }) ∧
    (data.toNat = 1 →
      exec (.wrCtrl data) s = .next { s with phase := .waitingForRising, ready := false, pending := false } ∧
      Armed { s with phase := .waitingForRising, ready := false, pending := false } ∧
      statusWord { s with phase := .waitingForRising, ready := false, pending := false } = 0#32) ∧
    (data.toNat = 0 → exec (.wrCtrl data) s = .next s)

/-- R105: a write of STATUS or RESULT faults BUS_WRITE_READONLY whatever the data; a write to RESULT does not clear READY. -/
def Obligations.WritesToReadOnlyRegistersFault : Prop :=
  ∀ (s : State) (data : BitVec 16), s.fault = none →
    exec (.wrStatus data) s = .next { s with fault := some ⟨.busWriteReadonly, encode (.wrStatus data)⟩ } ∧
    exec (.wrResult data) s = .next { s with fault := some ⟨.busWriteReadonly, encode (.wrResult data)⟩ }

/-- R106, R44: an access to any other offset faults: BUS_MISALIGNED when off is not a multiple of 4, checked first, else
BUS_RESERVED_OFFSET. Nothing else changes; a faulting read answers nothing. -/
def Obligations.OtherOffsetsFault : Prop :=
  ∀ (s : State) (off : BitVec 8) (data : BitVec 16), s.fault = none → registerOffsets.contains off = false →
    (off.toNat % 4 ≠ 0 →
      exec (.rdOther off) s = .next { s with fault := some ⟨.busMisaligned, encode (.rdOther off)⟩ } ∧
      exec (.wrOther off data) s = .next { s with fault := some ⟨.busMisaligned, encode (.wrOther off data)⟩ }) ∧
    (off.toNat % 4 = 0 →
      12 ≤ off.toNat ∧ off.toNat ≤ 252 ∧
      exec (.rdOther off) s = .next { s with fault := some ⟨.busReservedOffset, encode (.rdOther off)⟩ } ∧
      exec (.wrOther off data) s = .next { s with fault := some ⟨.busReservedOffset, encode (.wrOther off data)⟩ })

/-- R103: a bus read that does not fault appends exactly one response; every other transaction, and a faulting read,
appends nothing. -/
def Obligations.OnlyCompletedReadsAppendToTheLog : Prop :=
  ∀ (i : Instr) (s t : State), exec i s = .next t →
    (isBusRead i = true → t.fault = none → ∃ resp, t.log = s.log ++ [resp]) ∧
    (isBusRead i = false ∨ t.fault ≠ none → t.log = s.log)

/-- R109: SERVICE alone stores a width or sets READY, both in its falling branch; RD_RESULT, ABORT and RESET alone clear
READY; and but for RESET, which takes WIDTH back to *none* (R170; log entry 16), no other transaction changes WIDTH. -/
def Obligations.OneWriterAndOneReaderOfTheResult : Prop :=
  ∀ (i : Instr) (s t : State), exec i s = .next t →
    (t.width ≠ s.width → latchesHere i s = true ∨ i = .reset) ∧
    (s.ready = false → t.ready = true → latchesHere i s = true) ∧
    (s.ready = true → t.ready = false → deliversHere i s = true ∨ discardsHere i s = true)

/-- R107 (P3): after a RD_RESULT that answers VALID = 1, READY stays 0 through every run in which no SERVICE latches. -/
def Obligations.ConsumedResultStaysConsumed : Prop :=
  ∀ (s u t : State) (is : List Instr), s.ready = true → exec .rdResult s = .next u → u.fault = none →
    runAll is u = .next t → countAlong latchesHere is u = 0 → t.ready = false

/-- R49: once READY is seen 1, through every run without a read of RESULT, an ABORT or a RESET, the width stays, and the
read of RESULT that follows answers VALID = 1 with it. -/
def Obligations.PollThenReadIsRaceFree : Prop :=
  ∀ (s t : State) (is : List Instr) (w : Nat), s.Inv → s.ready = true → s.width = some w →
    (∀ i ∈ is, i ≠ .rdResult ∧ i ≠ .reset ∧ isAbort i = false) → runAll is s = .next t → t.fault = none →
    ∃ u, exec .rdResult t = .next u ∧ u.log = t.log ++ [0x80000000#32 ||| BitVec.ofNat 32 w] ∧ u.ready = false

/-- R108: results are conserved. Along every run the widths latched are each delivered once with VALID = 1, discarded by
an ABORT or a RESET, or still unread; the responses with bit 31 set are exactly those deliveries. -/
def Obligations.EveryLatchedWidthIsDeliveredAtMostOnce : Prop :=
  ∀ (s t : State) (is : List Instr), s.Inv → runAll is s = .next t →
    s.ready.toNat + countAlong latchesHere is s =
      countAlong deliversHere is s + countAlong discardsHere is s + t.ready.toNat ∧
    t.log.countP (fun resp => resp.getLsbD 31) =
      s.log.countP (fun resp => resp.getLsbD 31) + countAlong deliversHere is s

/-- R148: with an unread result, a SERVICE and a RD_RESULT may come in either order; the result is answered in both. -/
def Obligations.ServiceAndReadResultBothOrdersAnswerTheResult : Prop :=
  ∀ (s : State) (w : Nat), s.Inv → s.fault = none → s.ready = true → s.width = some w →
    ∃ t u, runAll [.service, .rdResult] s = .next t ∧ runAll [.rdResult, .service] s = .next u ∧
      t.fault = none ∧ u.fault = none ∧
      t.log = s.log ++ [0x80000000#32 ||| BitVec.ofNat 32 w] ∧ u.log = t.log ∧ t.phase = u.phase

/-! ### The counter and the duration law (42_timebase.md) -/

/-- R120: TICK takes CNT to CNT + 1 mod M, from M-1 to 0, and changes nothing else. -/
def Obligations.TickAdvancesTheCounter : Prop :=
  SpelledBy .tick 0x20000000#32 ∧ kindAgent Kind.tick = .environment ∧
  ∀ s : State, s.fault = none →
    agentEnabled .environment s = true ∧
    exec .tick s = .next { s with cnt := (s.cnt + 1) % s.cfg.M } ∧
    (s.cnt + 1 = s.cfg.M → exec .tick s = .next { s with cnt := 0 }) ∧
    (s.cfg.M = 1 → exec .tick s = .next { s with cnt := 0 })

/-- R121: CNT_CLEAR takes CNT to 0 and changes nothing else. -/
def Obligations.CntClearZeroesTheCounter : Prop :=
  SpelledBy .cntClear 0x70000000#32 ∧ kindAgent Kind.cntClear = .environment ∧
  ∀ s : State, s.fault = none →
    agentEnabled .environment s = true ∧ exec .cntClear s = .next { s with cnt := 0 }

/-- R31, R120, R170: through every run without a CNT_CLEAR the counter moves by the number of TICKs, mod M, whatever else
happens, a RESET included. -/
def Obligations.CounterMovesByTheTicksOfTheRun : Prop :=
  ∀ (s t : State) (is : List Instr), s.cnt < s.cfg.M → .cntClear ∉ is → runAll is s = .next t →
    t.cnt = (s.cnt + tickCount is) % s.cfg.M

/-- R124: the duration law. A pulse measured with D TICKs between its captures and no CNT_CLEAR latches the width D mod M;
the falling capture carries (r + D) mod M. It speaks of MeasuredPulse's pulses: no extra edge is captured inside the pulse
(one that SEQ_CHECK ignores neither), and READY is 0 at its start. -/
def Obligations.MeasuredWidthIsTheDurationModM : Prop :=
  ∀ (s u t : State) (seg rest : List Instr), MeasuredPulse s seg rest u t → .cntClear ∉ seg →
    u.cnt = (s.cnt + tickCount seg) % s.cfg.M ∧
    t.fault = none ∧ t.ready = true ∧ t.phase = .waitingForRising ∧ t.width = some (tickCount seg % s.cfg.M)

/-- R124: such a measurement always completes: from an armed block the runs of a measured pulse answer next states. -/
def Obligations.MeasuredPulseCompletes : Prop :=
  ∀ (s : State) (seg rest : List Instr), s.Inv → s.fault = none → Armed s → s.ready = false →
    seg.all insidePulse = true → Instr.service ∈ seg → rest.all quiet = true →
    ∃ u t, MeasuredPulse s seg rest u t

/-- R125, R126, for the pulses of MeasuredWidthIsTheDurationModM: the latched width is the duration D exactly when D < M; when D ≥ M it is too small by floor(D/M) * M,
a positive multiple of M, by M alone exactly when D < 2M, and it is 0 when D is a multiple of M. -/
def Obligations.WidthIsTheDurationExactlyBelowM : Prop :=
  ∀ (s u t : State) (seg rest : List Instr) (D : Nat), MeasuredPulse s seg rest u t → .cntClear ∉ seg →
    tickCount seg = D →
    (t.width = some D ↔ D < s.cfg.M) ∧
    (s.cfg.M ≤ D → ∃ w, t.width = some w ∧ D = w + D / s.cfg.M * s.cfg.M ∧ 1 ≤ D / s.cfg.M ∧
      (D = w + s.cfg.M ↔ D < 2 * s.cfg.M)) ∧
    (D % s.cfg.M = 0 → t.width = some 0)

/-- R127: between the captures the counter wraps floor((r + D) / M) times; a correct width implies at most one wrap, and
one wrap does not imply a correct width. -/
def Obligations.OneWrapDoesNotMakeAWidthCorrect : Prop :=
  (∀ (s u t : State) (seg rest : List Instr), MeasuredPulse s seg rest u t → .cntClear ∉ seg →
    countAlong wrapsHere (captureAtCnt .rising s :: seg) s = (s.cnt + tickCount seg) / s.cfg.M ∧
    (t.width = some (tickCount seg) → countAlong wrapsHere (captureAtCnt .rising s :: seg) s ≤ 1)) ∧
  (∃ (s u t : State) (seg rest : List Instr), MeasuredPulse s seg rest u t ∧ .cntClear ∉ seg ∧
    countAlong wrapsHere (captureAtCnt .rising s :: seg) s = 1 ∧ t.width ≠ some (tickCount seg))

/-- R128: with a CNT_CLEAR between the captures, the width is taken from the TICKs after the last clear alone. -/
def Obligations.WidthCountsOnlyTicksAfterTheLastClear : Prop :=
  ∀ (s u t : State) (before after rest : List Instr),
    MeasuredPulse s (before ++ .cntClear :: after) rest u t → .cntClear ∉ after →
    u.cnt = tickCount after % s.cfg.M ∧
    t.width = some (computeWidth s.cnt (tickCount after % s.cfg.M) s.cfg.M)

/-- R183: the number of TICKs between the two captures is within one tick of the pulse's length in ticks, whichever way an
edge that coincides with a tick is ordered. DEDUCED reading of "latched" counts: log entry 14. -/
def Obligations.TickCountIsWithinOneTickOfThePulse : Prop :=
  ∀ tickNs start tau n m : Nat, CountAt tickNs start n → CountAt tickNs (start + tau) m →
    (m : Int) * tickNs - n * tickNs - tau ≤ tickNs ∧ (tau : Int) - (m * tickNs - n * tickNs) ≤ tickNs

/-! ### Faults, interrupt, agents and the host (60_exceptions.md) -/

/-- R28: FAULT is *none* at the start of a run; once it is set no agent is enabled, no transaction (RESET neither) and no
step answers a next state, every one reports the recorded pair, no script changes the state, and it is not a good one. That every transaction and every step answers Fault.halted with the
recorded pair is the model's reading of "no agent has a step" (log entry 5, DEDUCED). -/
def Obligations.NoStepOnceFaultIsSet : Prop :=
  (∀ c cnt, (State.start c cnt).fault = none) ∧
  ∀ (s : State) (r : FaultRecord), s.fault = some r →
    (∀ a, agentEnabled a s = false) ∧
    (∀ i, exec i s = .fault (.halted r.code r.word)) ∧ step s = .fault (.halted r.code r.word) ∧
    ¬ s.Good ∧ (∀ ws, runWords ws s = s)

/-- R141, R140: a transaction that raises a fault changes no block, environment or log state; it only sets FAULT to a code
and its own word. -/
def Obligations.RaisingAFaultChangesNothingElse : Prop :=
  ∀ (i : Instr) (s t : State), exec i s = .next t → t.fault ≠ none →
    ∃ code, t = { s with fault := some ⟨code, encode i⟩ }

/-- R140, R143, R144, R36: in a state of the invariant, which fault a transaction raises, if any, in the check order. That
rdOther and wrOther raise one at the offsets 0, 4 and 8 too, which no word spells, is the model's reading (log entry 17,
DEDUCED). -/
def Obligations.FaultsExactlyOnTheirConditions : Prop :=
  ∀ (i : Instr) (s t : State), s.Inv → exec i s = .next t →
    t.fault.map (·.code) =
      match i with
      | .capture _ tick =>
        if s.cfg.M ≤ tick.toNat then some .tickRange else if s.pending then some .edgeOverrun else none
      | .rdOther off => if off.toNat % 4 ≠ 0 then some .busMisaligned else some .busReservedOffset
      | .wrOther off _ => if off.toNat % 4 ≠ 0 then some .busMisaligned else some .busReservedOffset
      | .wrStatus _ => some .busWriteReadonly
      | .wrResult _ => some .busWriteReadonly
      | .wrCtrl data => if 2 ≤ data.toNat then some .ctrlReservedBits else none
      | .reset => none
      | .tick => none
      | .service => none
      | .rdStatus => none
      | .rdResult => none
      | .rdCtrl => none
      | .cntClear => none

/-- R186, R15: while FAULT is *none* every transaction of every agent has a next state, and the environment, the consumer and
the reset are enabled; the engine is enabled exactly while a capture is pending (R81). A host that polls STATUS for ever
takes an infinite run, in which READY never changes (R160). -/
def Obligations.TheBlockNeverStopsWithoutAFault : Prop :=
  ∀ s : State, s.fault = none →
    (∀ i, ∃ t, exec i s = .next t) ∧
    agentEnabled .environment s = true ∧ agentEnabled .consumer s = true ∧ agentEnabled .reset s = true ∧
    agentEnabled .engine s = s.pending ∧
    (Run.infinite fun _ => .rdStatus).TakenFrom s ∧
    ∀ n t, (Run.infinite fun _ => .rdStatus).after s n = .next t → t.ready = s.ready

/-- R185, R14: in an infinite run in which the engine is weakly fair, every pending capture is at some point taken: by the
SERVICE of that same edge, in the same phase, or by an ABORT or a RESET that discards it. If it is SERVICE that takes an
accepted falling edge of a pulse while READY = 0, the width is there to read right after. No state of an infinite run has
FAULT set. Weak fairness is read as log entry 18 says (DEDUCED). -/
def Obligations.FairEngineServesEveryPendingCapture : Prop :=
  ∀ (s : State) (tr : Nat → Instr), (Run.infinite tr).TakenFrom s →
    (∀ n, ∃ u, (Run.infinite tr).after s n = .next u ∧ u.fault = none) ∧
    (WeaklyFair tr s →
      ∀ n u, (Run.infinite tr).after s n = .next u → u.pending = true →
        ∃ m v w, n ≤ m ∧ (Run.infinite tr).after s m = .next v ∧ exec (tr m) v = .next w ∧
          (tr m = .service ∨ isAbort (tr m) = true ∨ tr m = .reset) ∧
          v.pending = true ∧ v.captVal = u.captVal ∧ v.captPol = u.captPol ∧ v.phase = u.phase ∧ w.pending = false ∧
          (tr m = .service → edgeAccepted u = true → u.phase = .waitingForFalling → u.ready = false →
            ∃ r f, u.rise = some r ∧ u.captVal = some f ∧
              w.width = some (computeWidth r f u.cfg.M) ∧ w.ready = true))

/-- R176, R158, R36: a run that keeps the contract (no CAPTURE before the previous one is served, ticks below M, no access
that faults) completes with no fault and keeps the invariant. -/
def Obligations.ContractKeepingRunsNeverFault : Prop :=
  ∀ (is : List Instr) (s : State), s.Inv → s.fault = none → keepsContract s.cfg.M s.pending is = true →
    ∃ t, runAll is s = .next t ∧ t.fault = none ∧ t.Inv

/-- R146: IRQ is the level of PENDING; a CAPTURE alone raises it, SERVICE, ABORT and RESET alone clear it. -/
def Obligations.IrqFollowsThePendingCapture : Prop :=
  (∀ s : State, irq s = s.pending) ∧
  ∀ (i : Instr) (s t : State), exec i s = .next t → t.fault = none →
    (irq s = false → (irq t = true ↔ i.kind = .capture)) ∧
    (irq s = true → (irq t = false ↔ i = .service ∨ isAbort i = true ∨ i = .reset))

/-- R162, R163: the host's conversion, the source's example, and the widths at which 32-bit products overflow. -/
def Obligations.HostConversionAndItsOverflow : Prop :=
  widthNanoseconds 2667 1000 = 2667000 ∧ distanceCm 343 2667 1000 = 45 ∧
  (∀ w, 2 ^ 31 - 1 < speedProduct 343 2667 w ↔ 2348 ≤ w) ∧
  (∀ w, 2 ^ 32 - 1 < speedProduct 343 2667 w ↔ 4696 ≤ w) ∧
  (∀ w, w ≤ 65535 → speedProduct 343 2667 w < 2 ^ 64)

/-! ### Reset, the invariant and the step (70_reset_and_hazards.md, 10_state.md) -/

/-- R170: RESET sets PHASE, READY and PENDING to 0 and RISE, WIDTH, CAPT_VAL and CAPT_POL to *none*; CNT, FAULT, REFUSED and
the log stay, and a read of STATUS answers 0. -/
def Obligations.ResetClearsTheBlock : Prop :=
  SpelledBy .reset 0x10000000#32 ∧
  ∀ s : State, s.fault = none →
    agentEnabled .reset s = true ∧
    exec .reset s = .next { s with phase := .waitingForRising, ready := false, pending := false, rise := none, width := none, captVal := none, captPol := none } ∧
    ∃ t, runAll [.reset, .rdStatus] s = .next t ∧ t.log = s.log ++ [0x00000000#32]

/-- R170, R104: after an ABORT and after a RESET the block answers every run of transactions alike: no transaction can
observe where the two differ. It holds for every value of the free widths (log entry 3). -/
def Obligations.AbortAndResetCannotBeToldApart : Prop :=
  ∀ (s a b t : State) (is : List Instr), exec .reset s = .next a → exec (.wrCtrl 1#16) s = .next b →
    runAll is a = .next t → ∃ u, runAll is b = .next u ∧ SameObservable t u

/-- R170, R36: registers that no transaction can observe before they are written again do not matter: transactions keep
two states indistinguishable. -/
def Obligations.StepsKeepStatesIndistinguishable : Prop :=
  ∀ (i : Instr) (s s' t : State), SameObservable s s' → exec i s = .next t →
    ∃ t', exec i s' = .next t' ∧ SameObservable t t'

/-- R171, R173: at the start of a run the block is as a RESET leaves it, FAULT is *none*, REFUSED false, the log empty and
CNT in [0, M-1]. -/
def Obligations.RunStartsInTheResetState : Prop :=
  State.reset.phase = .waitingForRising ∧ State.reset.ready = false ∧ State.reset.pending = false ∧
  State.reset.rise = none ∧ State.reset.width = none ∧ State.reset.captVal = none ∧ State.reset.captPol = none ∧
  State.reset.fault = none ∧ State.reset.refused = false ∧ State.reset.log = [] ∧
  State.reset.cnt < State.reset.cfg.M ∧ statusWord State.reset = 0x00000000#32

/-- R36: the invariant holds at State.reset and at the start of every run, in every configuration R6 and R7 admit. -/
def Obligations.InvariantHoldsAtTheStart : Prop :=
  State.reset.Inv ∧ ∀ (c : Config) (cnt : Nat), c.WF → cnt < c.M → (State.start c cnt).Inv

/-- R36: every step keeps the invariant (a) to (d), with CNT below M and the parameters in their ranges. -/
def Obligations.EveryStepKeepsTheInvariant : Prop :=
  ∀ s t : State, s.Inv → step s = .next t → t.Inv

/-- R36, R140 code 7: no run from the start of a run ever reads a *none* value, so UNWRITTEN_READ is unreachable. -/
def Obligations.UnwrittenReadIsUnreachable : Prop :=
  ∀ (c : Config) (cnt : Nat) (ws : List Word), c.WF → cnt < c.M →
    ∀ r, (runWords ws (State.start c cnt)).fault = some r → r.code ≠ .unwrittenRead

/-- R6 to R9, R14: a step changes no parameter and takes one word of the script (the script is the model's own field, log
entry 7). R147, R146: the block does the same however IRQ is routed in the host, and IRQ is the same level. -/
def Obligations.StepsKeepTheParametersAndTakeOneWord : Prop :=
  ∀ s t : State, step s = .next t →
    t.cfg = s.cfg ∧ t.script = s.script.tail ∧
    ∀ routing : IrqRouting,
      step { s with cfg := { s.cfg with irqRouting := routing } } =
        .next { t with cfg := { s.cfg with irqRouting := routing } } ∧
      irq { t with cfg := { s.cfg with irqRouting := routing } } = irq t

/-- R14, R15, R70: a step delivers the next word of the script: it runs the decoded transaction on the state whose script
holds the words after it; a refused word sets REFUSED. That a step after a refusal answers Refusal.scriptRefused is the
model's reading of "the script ends refused" (log entry 6, DEDUCED); that the script is a field of the state and that with
no word left nothing changes is the model's choice (log entry 7, DESIGN CHOICE). -/
def Obligations.StepRunsTheDecodedTransaction : Prop :=
  ∀ s : State, s.fault = none →
    (∀ w ws i, s.refused = false → s.script = w :: ws → i.wellFormed = true → decode w = .transaction i →
      step s = exec i { s with script := ws }) ∧
    (∀ w ws r, s.refused = false → s.script = w :: ws → decode w = .refuse r →
      step s = .next { s with script := ws, refused := true }) ∧
    (s.refused = true → step s = .refused .scriptRefused) ∧
    (s.refused = false → s.script = [] → step s = .next s)

/-- R14: the host's steps apply a script. A script that ends completed is run by as many steps as it has words, and leaves
the state that applying the words in order leaves. That the words to be delivered stand in the field script is the model's
choice (log entry 7, DESIGN CHOICE). -/
def Obligations.StepsApplyTheScriptInOrder : Prop :=
  ∀ (ws : List Word) (s : State), s.script = [] → (runWords ws s).Good →
    Host.Core.run Sys2Proof.core ws.length { s with script := ws } = .next (runWords ws s)

/-- R14, R29: a script that has faulted or been refused applies no word after that, and the end it shows stays. -/
def Obligations.NoWordIsAppliedAfterTheEnd : Prop :=
  ∀ (ws vs : List Word) (s : State), ¬ (runWords ws s).Good →
    runWords (ws ++ vs) s = runWords ws s ∧ observe (ws ++ vs) s = observe ws s

/-- R172: right after reset the block is armed: a captured rising edge is taken as the start of a pulse; a falling edge is
too without SEQ_CHECK, and is ignored with it. -/
def Obligations.FirstEdgeAfterResetStartsAPulse : Prop :=
  ∀ (c : Config) (cnt : Nat) (pol : Polarity) (tick : BitVec 24), c.WF → tick.toNat < c.M →
    ∃ t, runAll [.capture pol tick, .service] (State.start c cnt) = .next t ∧ t.fault = none ∧ t.pending = false ∧
      (c.seqCheck = false ∨ pol = .rising → t.phase = .waitingForFalling ∧ t.rise = some tick.toNat) ∧
      (c.seqCheck = true → pol = .falling → t.phase = .waitingForRising ∧ t.rise = none)
end

