-- ==== Sys2Proof/Laws/State.lean ====
section
/-! SUPPORT. One lemma per field per named write of the state, so that no proof unfolds a record update. -/

namespace Sys2Proof.Machine

variable (s : State)

@[simp] theorem State.setPhase_cfg (p : Phase) : (s.setPhase p).cfg = s.cfg := rfl
@[simp] theorem State.setPhase_phase (p : Phase) : (s.setPhase p).phase = p := rfl
@[simp] theorem State.setPhase_rise (p : Phase) : (s.setPhase p).rise = s.rise := rfl
@[simp] theorem State.setPhase_width (p : Phase) : (s.setPhase p).width = s.width := rfl
@[simp] theorem State.setPhase_pending (p : Phase) : (s.setPhase p).pending = s.pending := rfl
@[simp] theorem State.setPhase_captVal (p : Phase) : (s.setPhase p).captVal = s.captVal := rfl
@[simp] theorem State.setPhase_captPol (p : Phase) : (s.setPhase p).captPol = s.captPol := rfl
@[simp] theorem State.setPhase_ready (p : Phase) : (s.setPhase p).ready = s.ready := rfl
@[simp] theorem State.setPhase_fault (p : Phase) : (s.setPhase p).fault = s.fault := rfl
@[simp] theorem State.setPhase_refused (p : Phase) : (s.setPhase p).refused = s.refused := rfl
@[simp] theorem State.setPhase_log (p : Phase) : (s.setPhase p).log = s.log := rfl
@[simp] theorem State.setPhase_cnt (p : Phase) : (s.setPhase p).cnt = s.cnt := rfl
@[simp] theorem State.setPhase_draws (p : Phase) : (s.setPhase p).draws = s.draws := rfl
@[simp] theorem State.setPhase_script (p : Phase) : (s.setPhase p).script = s.script := rfl

@[simp] theorem State.setRise_cfg (v : Option Nat) : (s.setRise v).cfg = s.cfg := rfl
@[simp] theorem State.setRise_phase (v : Option Nat) : (s.setRise v).phase = s.phase := rfl
@[simp] theorem State.setRise_rise (v : Option Nat) : (s.setRise v).rise = v := rfl
@[simp] theorem State.setRise_width (v : Option Nat) : (s.setRise v).width = s.width := rfl
@[simp] theorem State.setRise_pending (v : Option Nat) : (s.setRise v).pending = s.pending := rfl
@[simp] theorem State.setRise_captVal (v : Option Nat) : (s.setRise v).captVal = s.captVal := rfl
@[simp] theorem State.setRise_captPol (v : Option Nat) : (s.setRise v).captPol = s.captPol := rfl
@[simp] theorem State.setRise_ready (v : Option Nat) : (s.setRise v).ready = s.ready := rfl
@[simp] theorem State.setRise_fault (v : Option Nat) : (s.setRise v).fault = s.fault := rfl
@[simp] theorem State.setRise_refused (v : Option Nat) : (s.setRise v).refused = s.refused := rfl
@[simp] theorem State.setRise_log (v : Option Nat) : (s.setRise v).log = s.log := rfl
@[simp] theorem State.setRise_cnt (v : Option Nat) : (s.setRise v).cnt = s.cnt := rfl
@[simp] theorem State.setRise_draws (v : Option Nat) : (s.setRise v).draws = s.draws := rfl
@[simp] theorem State.setRise_script (v : Option Nat) : (s.setRise v).script = s.script := rfl

@[simp] theorem State.setWidth_cfg (v : Option Nat) : (s.setWidth v).cfg = s.cfg := rfl
@[simp] theorem State.setWidth_phase (v : Option Nat) : (s.setWidth v).phase = s.phase := rfl
@[simp] theorem State.setWidth_rise (v : Option Nat) : (s.setWidth v).rise = s.rise := rfl
@[simp] theorem State.setWidth_width (v : Option Nat) : (s.setWidth v).width = v := rfl
@[simp] theorem State.setWidth_pending (v : Option Nat) : (s.setWidth v).pending = s.pending := rfl
@[simp] theorem State.setWidth_captVal (v : Option Nat) : (s.setWidth v).captVal = s.captVal := rfl
@[simp] theorem State.setWidth_captPol (v : Option Nat) : (s.setWidth v).captPol = s.captPol := rfl
@[simp] theorem State.setWidth_ready (v : Option Nat) : (s.setWidth v).ready = s.ready := rfl
@[simp] theorem State.setWidth_fault (v : Option Nat) : (s.setWidth v).fault = s.fault := rfl
@[simp] theorem State.setWidth_refused (v : Option Nat) : (s.setWidth v).refused = s.refused := rfl
@[simp] theorem State.setWidth_log (v : Option Nat) : (s.setWidth v).log = s.log := rfl
@[simp] theorem State.setWidth_cnt (v : Option Nat) : (s.setWidth v).cnt = s.cnt := rfl
@[simp] theorem State.setWidth_draws (v : Option Nat) : (s.setWidth v).draws = s.draws := rfl
@[simp] theorem State.setWidth_script (v : Option Nat) : (s.setWidth v).script = s.script := rfl

@[simp] theorem State.setPending_cfg (b : Bool) : (s.setPending b).cfg = s.cfg := rfl
@[simp] theorem State.setPending_phase (b : Bool) : (s.setPending b).phase = s.phase := rfl
@[simp] theorem State.setPending_rise (b : Bool) : (s.setPending b).rise = s.rise := rfl
@[simp] theorem State.setPending_width (b : Bool) : (s.setPending b).width = s.width := rfl
@[simp] theorem State.setPending_pending (b : Bool) : (s.setPending b).pending = b := rfl
@[simp] theorem State.setPending_captVal (b : Bool) : (s.setPending b).captVal = s.captVal := rfl
@[simp] theorem State.setPending_captPol (b : Bool) : (s.setPending b).captPol = s.captPol := rfl
@[simp] theorem State.setPending_ready (b : Bool) : (s.setPending b).ready = s.ready := rfl
@[simp] theorem State.setPending_fault (b : Bool) : (s.setPending b).fault = s.fault := rfl
@[simp] theorem State.setPending_refused (b : Bool) : (s.setPending b).refused = s.refused := rfl
@[simp] theorem State.setPending_log (b : Bool) : (s.setPending b).log = s.log := rfl
@[simp] theorem State.setPending_cnt (b : Bool) : (s.setPending b).cnt = s.cnt := rfl
@[simp] theorem State.setPending_draws (b : Bool) : (s.setPending b).draws = s.draws := rfl
@[simp] theorem State.setPending_script (b : Bool) : (s.setPending b).script = s.script := rfl

@[simp] theorem State.setCapture_cfg (v : Option Nat) (p : Option Polarity) : (s.setCapture v p).cfg = s.cfg := rfl
@[simp] theorem State.setCapture_phase (v : Option Nat) (p : Option Polarity) : (s.setCapture v p).phase = s.phase := rfl
@[simp] theorem State.setCapture_rise (v : Option Nat) (p : Option Polarity) : (s.setCapture v p).rise = s.rise := rfl
@[simp] theorem State.setCapture_width (v : Option Nat) (p : Option Polarity) : (s.setCapture v p).width = s.width := rfl
@[simp] theorem State.setCapture_pending (v : Option Nat) (p : Option Polarity) : (s.setCapture v p).pending = s.pending := rfl
@[simp] theorem State.setCapture_captVal (v : Option Nat) (p : Option Polarity) : (s.setCapture v p).captVal = v := rfl
@[simp] theorem State.setCapture_captPol (v : Option Nat) (p : Option Polarity) : (s.setCapture v p).captPol = p := rfl
@[simp] theorem State.setCapture_ready (v : Option Nat) (p : Option Polarity) : (s.setCapture v p).ready = s.ready := rfl
@[simp] theorem State.setCapture_fault (v : Option Nat) (p : Option Polarity) : (s.setCapture v p).fault = s.fault := rfl
@[simp] theorem State.setCapture_refused (v : Option Nat) (p : Option Polarity) : (s.setCapture v p).refused = s.refused := rfl
@[simp] theorem State.setCapture_log (v : Option Nat) (p : Option Polarity) : (s.setCapture v p).log = s.log := rfl
@[simp] theorem State.setCapture_cnt (v : Option Nat) (p : Option Polarity) : (s.setCapture v p).cnt = s.cnt := rfl
@[simp] theorem State.setCapture_draws (v : Option Nat) (p : Option Polarity) : (s.setCapture v p).draws = s.draws := rfl
@[simp] theorem State.setCapture_script (v : Option Nat) (p : Option Polarity) : (s.setCapture v p).script = s.script := rfl

@[simp] theorem State.setReady_cfg (b : Bool) : (s.setReady b).cfg = s.cfg := rfl
@[simp] theorem State.setReady_phase (b : Bool) : (s.setReady b).phase = s.phase := rfl
@[simp] theorem State.setReady_rise (b : Bool) : (s.setReady b).rise = s.rise := rfl
@[simp] theorem State.setReady_width (b : Bool) : (s.setReady b).width = s.width := rfl
@[simp] theorem State.setReady_pending (b : Bool) : (s.setReady b).pending = s.pending := rfl
@[simp] theorem State.setReady_captVal (b : Bool) : (s.setReady b).captVal = s.captVal := rfl
@[simp] theorem State.setReady_captPol (b : Bool) : (s.setReady b).captPol = s.captPol := rfl
@[simp] theorem State.setReady_ready (b : Bool) : (s.setReady b).ready = b := rfl
@[simp] theorem State.setReady_fault (b : Bool) : (s.setReady b).fault = s.fault := rfl
@[simp] theorem State.setReady_refused (b : Bool) : (s.setReady b).refused = s.refused := rfl
@[simp] theorem State.setReady_log (b : Bool) : (s.setReady b).log = s.log := rfl
@[simp] theorem State.setReady_cnt (b : Bool) : (s.setReady b).cnt = s.cnt := rfl
@[simp] theorem State.setReady_draws (b : Bool) : (s.setReady b).draws = s.draws := rfl
@[simp] theorem State.setReady_script (b : Bool) : (s.setReady b).script = s.script := rfl

@[simp] theorem State.setFault_cfg (r : FaultRecord) : (s.setFault r).cfg = s.cfg := rfl
@[simp] theorem State.setFault_phase (r : FaultRecord) : (s.setFault r).phase = s.phase := rfl
@[simp] theorem State.setFault_rise (r : FaultRecord) : (s.setFault r).rise = s.rise := rfl
@[simp] theorem State.setFault_width (r : FaultRecord) : (s.setFault r).width = s.width := rfl
@[simp] theorem State.setFault_pending (r : FaultRecord) : (s.setFault r).pending = s.pending := rfl
@[simp] theorem State.setFault_captVal (r : FaultRecord) : (s.setFault r).captVal = s.captVal := rfl
@[simp] theorem State.setFault_captPol (r : FaultRecord) : (s.setFault r).captPol = s.captPol := rfl
@[simp] theorem State.setFault_ready (r : FaultRecord) : (s.setFault r).ready = s.ready := rfl
@[simp] theorem State.setFault_fault (r : FaultRecord) : (s.setFault r).fault = some r := rfl
@[simp] theorem State.setFault_refused (r : FaultRecord) : (s.setFault r).refused = s.refused := rfl
@[simp] theorem State.setFault_log (r : FaultRecord) : (s.setFault r).log = s.log := rfl
@[simp] theorem State.setFault_cnt (r : FaultRecord) : (s.setFault r).cnt = s.cnt := rfl
@[simp] theorem State.setFault_draws (r : FaultRecord) : (s.setFault r).draws = s.draws := rfl
@[simp] theorem State.setFault_script (r : FaultRecord) : (s.setFault r).script = s.script := rfl

@[simp] theorem State.setRefused_cfg : s.setRefused.cfg = s.cfg := rfl
@[simp] theorem State.setRefused_phase : s.setRefused.phase = s.phase := rfl
@[simp] theorem State.setRefused_rise : s.setRefused.rise = s.rise := rfl
@[simp] theorem State.setRefused_width : s.setRefused.width = s.width := rfl
@[simp] theorem State.setRefused_pending : s.setRefused.pending = s.pending := rfl
@[simp] theorem State.setRefused_captVal : s.setRefused.captVal = s.captVal := rfl
@[simp] theorem State.setRefused_captPol : s.setRefused.captPol = s.captPol := rfl
@[simp] theorem State.setRefused_ready : s.setRefused.ready = s.ready := rfl
@[simp] theorem State.setRefused_fault : s.setRefused.fault = s.fault := rfl
@[simp] theorem State.setRefused_refused : s.setRefused.refused = true := rfl
@[simp] theorem State.setRefused_log : s.setRefused.log = s.log := rfl
@[simp] theorem State.setRefused_cnt : s.setRefused.cnt = s.cnt := rfl
@[simp] theorem State.setRefused_draws : s.setRefused.draws = s.draws := rfl
@[simp] theorem State.setRefused_script : s.setRefused.script = s.script := rfl

@[simp] theorem State.logResponse_cfg (w : Word) : (s.logResponse w).cfg = s.cfg := rfl
@[simp] theorem State.logResponse_phase (w : Word) : (s.logResponse w).phase = s.phase := rfl
@[simp] theorem State.logResponse_rise (w : Word) : (s.logResponse w).rise = s.rise := rfl
@[simp] theorem State.logResponse_width (w : Word) : (s.logResponse w).width = s.width := rfl
@[simp] theorem State.logResponse_pending (w : Word) : (s.logResponse w).pending = s.pending := rfl
@[simp] theorem State.logResponse_captVal (w : Word) : (s.logResponse w).captVal = s.captVal := rfl
@[simp] theorem State.logResponse_captPol (w : Word) : (s.logResponse w).captPol = s.captPol := rfl
@[simp] theorem State.logResponse_ready (w : Word) : (s.logResponse w).ready = s.ready := rfl
@[simp] theorem State.logResponse_fault (w : Word) : (s.logResponse w).fault = s.fault := rfl
@[simp] theorem State.logResponse_refused (w : Word) : (s.logResponse w).refused = s.refused := rfl
@[simp] theorem State.logResponse_log (w : Word) : (s.logResponse w).log = s.log ++ [w] := rfl
@[simp] theorem State.logResponse_cnt (w : Word) : (s.logResponse w).cnt = s.cnt := rfl
@[simp] theorem State.logResponse_draws (w : Word) : (s.logResponse w).draws = s.draws := rfl
@[simp] theorem State.logResponse_script (w : Word) : (s.logResponse w).script = s.script := rfl

@[simp] theorem State.setCnt_cfg (n : Nat) : (s.setCnt n).cfg = s.cfg := rfl
@[simp] theorem State.setCnt_phase (n : Nat) : (s.setCnt n).phase = s.phase := rfl
@[simp] theorem State.setCnt_rise (n : Nat) : (s.setCnt n).rise = s.rise := rfl
@[simp] theorem State.setCnt_width (n : Nat) : (s.setCnt n).width = s.width := rfl
@[simp] theorem State.setCnt_pending (n : Nat) : (s.setCnt n).pending = s.pending := rfl
@[simp] theorem State.setCnt_captVal (n : Nat) : (s.setCnt n).captVal = s.captVal := rfl
@[simp] theorem State.setCnt_captPol (n : Nat) : (s.setCnt n).captPol = s.captPol := rfl
@[simp] theorem State.setCnt_ready (n : Nat) : (s.setCnt n).ready = s.ready := rfl
@[simp] theorem State.setCnt_fault (n : Nat) : (s.setCnt n).fault = s.fault := rfl
@[simp] theorem State.setCnt_refused (n : Nat) : (s.setCnt n).refused = s.refused := rfl
@[simp] theorem State.setCnt_log (n : Nat) : (s.setCnt n).log = s.log := rfl
@[simp] theorem State.setCnt_cnt (n : Nat) : (s.setCnt n).cnt = n := rfl
@[simp] theorem State.setCnt_draws (n : Nat) : (s.setCnt n).draws = s.draws := rfl
@[simp] theorem State.setCnt_script (n : Nat) : (s.setCnt n).script = s.script := rfl

@[simp] theorem State.countDraw_cfg : s.countDraw.cfg = s.cfg := rfl
@[simp] theorem State.countDraw_phase : s.countDraw.phase = s.phase := rfl
@[simp] theorem State.countDraw_rise : s.countDraw.rise = s.rise := rfl
@[simp] theorem State.countDraw_width : s.countDraw.width = s.width := rfl
@[simp] theorem State.countDraw_pending : s.countDraw.pending = s.pending := rfl
@[simp] theorem State.countDraw_captVal : s.countDraw.captVal = s.captVal := rfl
@[simp] theorem State.countDraw_captPol : s.countDraw.captPol = s.captPol := rfl
@[simp] theorem State.countDraw_ready : s.countDraw.ready = s.ready := rfl
@[simp] theorem State.countDraw_fault : s.countDraw.fault = s.fault := rfl
@[simp] theorem State.countDraw_refused : s.countDraw.refused = s.refused := rfl
@[simp] theorem State.countDraw_log : s.countDraw.log = s.log := rfl
@[simp] theorem State.countDraw_cnt : s.countDraw.cnt = s.cnt := rfl
@[simp] theorem State.countDraw_draws : s.countDraw.draws = s.draws + 1 := rfl
@[simp] theorem State.countDraw_script : s.countDraw.script = s.script := rfl

@[simp] theorem State.setScript_cfg (ws : List Word) : (s.setScript ws).cfg = s.cfg := rfl
@[simp] theorem State.setScript_phase (ws : List Word) : (s.setScript ws).phase = s.phase := rfl
@[simp] theorem State.setScript_rise (ws : List Word) : (s.setScript ws).rise = s.rise := rfl
@[simp] theorem State.setScript_width (ws : List Word) : (s.setScript ws).width = s.width := rfl
@[simp] theorem State.setScript_pending (ws : List Word) : (s.setScript ws).pending = s.pending := rfl
@[simp] theorem State.setScript_captVal (ws : List Word) : (s.setScript ws).captVal = s.captVal := rfl
@[simp] theorem State.setScript_captPol (ws : List Word) : (s.setScript ws).captPol = s.captPol := rfl
@[simp] theorem State.setScript_ready (ws : List Word) : (s.setScript ws).ready = s.ready := rfl
@[simp] theorem State.setScript_fault (ws : List Word) : (s.setScript ws).fault = s.fault := rfl
@[simp] theorem State.setScript_refused (ws : List Word) : (s.setScript ws).refused = s.refused := rfl
@[simp] theorem State.setScript_log (ws : List Word) : (s.setScript ws).log = s.log := rfl
@[simp] theorem State.setScript_cnt (ws : List Word) : (s.setScript ws).cnt = s.cnt := rfl
@[simp] theorem State.setScript_draws (ws : List Word) : (s.setScript ws).draws = s.draws := rfl
@[simp] theorem State.setScript_script (ws : List Word) : (s.setScript ws).script = ws := rfl

@[simp] theorem State.abort_cfg : s.abort.cfg = s.cfg := rfl
@[simp] theorem State.abort_phase : s.abort.phase = .waitingForRising := rfl
@[simp] theorem State.abort_rise : s.abort.rise = s.rise := rfl
@[simp] theorem State.abort_width : s.abort.width = s.width := rfl
@[simp] theorem State.abort_pending : s.abort.pending = false := rfl
@[simp] theorem State.abort_captVal : s.abort.captVal = s.captVal := rfl
@[simp] theorem State.abort_captPol : s.abort.captPol = s.captPol := rfl
@[simp] theorem State.abort_ready : s.abort.ready = false := rfl
@[simp] theorem State.abort_fault : s.abort.fault = s.fault := rfl
@[simp] theorem State.abort_refused : s.abort.refused = s.refused := rfl
@[simp] theorem State.abort_log : s.abort.log = s.log := rfl
@[simp] theorem State.abort_cnt : s.abort.cnt = s.cnt := rfl
@[simp] theorem State.abort_draws : s.abort.draws = s.draws := rfl
@[simp] theorem State.abort_script : s.abort.script = s.script := rfl

@[simp] theorem State.resetBlock_cfg : s.resetBlock.cfg = s.cfg := rfl
@[simp] theorem State.resetBlock_phase : s.resetBlock.phase = .waitingForRising := rfl
@[simp] theorem State.resetBlock_rise : s.resetBlock.rise = none := rfl
@[simp] theorem State.resetBlock_width : s.resetBlock.width = none := rfl
@[simp] theorem State.resetBlock_pending : s.resetBlock.pending = false := rfl
@[simp] theorem State.resetBlock_captVal : s.resetBlock.captVal = none := rfl
@[simp] theorem State.resetBlock_captPol : s.resetBlock.captPol = none := rfl
@[simp] theorem State.resetBlock_ready : s.resetBlock.ready = false := rfl
@[simp] theorem State.resetBlock_fault : s.resetBlock.fault = s.fault := rfl
@[simp] theorem State.resetBlock_refused : s.resetBlock.refused = s.refused := rfl
@[simp] theorem State.resetBlock_log : s.resetBlock.log = s.log := rfl
@[simp] theorem State.resetBlock_cnt : s.resetBlock.cnt = s.cnt := rfl
@[simp] theorem State.resetBlock_draws : s.resetBlock.draws = s.draws := rfl
@[simp] theorem State.resetBlock_script : s.resetBlock.script = s.script := rfl

@[simp] theorem State.latchWidth_cfg (w : Nat) : (s.latchWidth w).cfg = s.cfg := by
  unfold State.latchWidth; split <;> rfl
@[simp] theorem State.latchWidth_phase (w : Nat) : (s.latchWidth w).phase = s.phase := by
  unfold State.latchWidth; split <;> rfl
@[simp] theorem State.latchWidth_rise (w : Nat) : (s.latchWidth w).rise = s.rise := by
  unfold State.latchWidth; split <;> rfl
@[simp] theorem State.latchWidth_width (w : Nat) :
    (s.latchWidth w).width = bif s.ready then s.width else some w := by
  unfold State.latchWidth; cases s.ready <;> rfl
@[simp] theorem State.latchWidth_pending (w : Nat) : (s.latchWidth w).pending = s.pending := by
  unfold State.latchWidth; split <;> rfl
@[simp] theorem State.latchWidth_captVal (w : Nat) : (s.latchWidth w).captVal = s.captVal := by
  unfold State.latchWidth; split <;> rfl
@[simp] theorem State.latchWidth_captPol (w : Nat) : (s.latchWidth w).captPol = s.captPol := by
  unfold State.latchWidth; split <;> rfl
@[simp] theorem State.latchWidth_ready (w : Nat) : (s.latchWidth w).ready = true := by
  unfold State.latchWidth; split <;> simp_all
@[simp] theorem State.latchWidth_fault (w : Nat) : (s.latchWidth w).fault = s.fault := by
  unfold State.latchWidth; split <;> rfl
@[simp] theorem State.latchWidth_refused (w : Nat) : (s.latchWidth w).refused = s.refused := by
  unfold State.latchWidth; split <;> rfl
@[simp] theorem State.latchWidth_log (w : Nat) : (s.latchWidth w).log = s.log := by
  unfold State.latchWidth; split <;> rfl
@[simp] theorem State.latchWidth_cnt (w : Nat) : (s.latchWidth w).cnt = s.cnt := by
  unfold State.latchWidth; split <;> rfl
@[simp] theorem State.latchWidth_draws (w : Nat) : (s.latchWidth w).draws = s.draws := by
  unfold State.latchWidth; split <;> rfl
@[simp] theorem State.latchWidth_script (w : Nat) : (s.latchWidth w).script = s.script := by
  unfold State.latchWidth; split <;> rfl

end Sys2Proof.Machine
end

