-- ==== Sys2Proof/Laws/Ops.lean ====
section
/-! SUPPORT. One lemma per shared operation that says all it can do when it answers a next state. -/

namespace Sys2Proof.Machine

@[simp] theorem tickBelow_none (M : Nat) : TickBelow M none := by simp [TickBelow]

@[simp] theorem tickBelow_some (M v : Nat) : TickBelow M (some v) ↔ v < M := by simp [TickBelow]

theorem whileNoFault_of_none {s : State} (h : s.fault = none) (k : Result) : whileNoFault s k = k := by
  simp [whileNoFault, h]

theorem whileNoFault_of_some {s : State} {r : FaultRecord} (h : s.fault = some r) (k : Result) :
    whileNoFault s k = .fault (.halted r.code r.word) := by
  simp [whileNoFault, h]

/-- The guard lets a next state through exactly when FAULT is *none*. -/
theorem whileNoFault_next {s t : State} {k : Result} :
    whileNoFault s k = .next t ↔ s.fault = none ∧ k = .next t := by
  unfold whileNoFault
  cases s.fault <;> simp

@[simp] theorem raiseFault_next {code : FaultCode} {i : Instr} {s t : State} :
    raiseFault code i s = .next t ↔ s.setFault { code := code, word := encode i } = t := by
  simp [raiseFault]

@[simp] theorem answerRead_next {resp : Word} {s t : State} :
    answerRead resp s = .next t ↔ s.logResponse resp = t := by
  simp [answerRead]

/-- Reading a register either hands its value on or raises UNWRITTEN_READ. -/
theorem readWritten_next {α : Type} {o : Option α} {i : Instr} {s t : State} {k : α → Result} :
    readWritten o i s k = .next t ↔
      (∃ v, o = some v ∧ k v = .next t) ∨
      (o = none ∧ s.setFault { code := .unwrittenRead, word := encode i } = t) := by
  unfold readWritten
  cases o <;> simp

@[simp] theorem readWritten_some {α : Type} (v : α) (i : Instr) (s : State) (k : α → Result) :
    readWritten (some v) i s k = k v := rfl

/-- An access to an offset with no register raises one of two faults (R106). -/
theorem rejectOffset_next {off : BitVec 8} {i : Instr} {s t : State} :
    rejectOffset off i s = .next t ↔
      s.setFault { code := if misaligned off then .busMisaligned else .busReservedOffset, word := encode i } = t := by
  unfold rejectOffset
  split <;> simp

@[simp] theorem risingBranch_next {v : Nat} {s t : State} :
    risingBranch v s = .next t ↔ ((s.setPending false).setRise (some v)).setPhase .waitingForFalling = t := by
  simp [risingBranch]

/-- The falling branch latches or drops a width, or meets a *none* in RISE (R83). -/
theorem fallingBranch_next {v : Nat} {s t : State} :
    fallingBranch v s = .next t ↔
      (∃ r, s.rise = some r ∧
        ((s.setPending false).latchWidth (computeWidth r v s.cfg.M)).setPhase .waitingForRising = t) ∨
      (s.rise = none ∧ s.setFault { code := .unwrittenRead, word := encode .service } = t) := by
  simp [fallingBranch, readWritten_next]

/-- An accepted edge takes the branch that PHASE selects (R81). -/
theorem acceptEdge_next {v : Nat} {s t : State} :
    acceptEdge v s = .next t ↔
      (s.phase = .waitingForRising ∧ risingBranch v s = .next t) ∨
      (s.phase = .waitingForFalling ∧ fallingBranch v s = .next t) := by
  unfold acceptEdge
  cases s.phase <;> simp

/-- The script's guard lets a next state through exactly in a good state. -/
theorem whileScriptRuns_next {s t : State} {k : Result} :
    whileScriptRuns s k = .next t ↔ s.fault = none ∧ s.refused = false ∧ k = .next t := by
  unfold whileScriptRuns
  rw [whileNoFault_next]
  cases s.refused <;> simp

/-- A delivered word executes its transaction or is refused (R70). -/
theorem deliver_next {w : Word} {s t : State} :
    deliver w s = .next t ↔
      s.fault = none ∧ s.refused = false ∧
        ((∃ i, decode w = .transaction i ∧ exec i s = .next t) ∨
         (∃ r, decode w = .refuse r ∧ s.setRefused = t)) := by
  unfold deliver
  rw [whileScriptRuns_next]
  cases decode w <;> simp [refuseWord]

/-- A run of a longer list goes through a state of its own after the first transaction. -/
theorem runAll_cons_next {i : Instr} {is : List Instr} {s t : State} :
    runAll (i :: is) s = .next t ↔ ∃ u, exec i s = .next u ∧ runAll is u = .next t := by
  simp only [runAll]
  cases exec i s <;> simp

/-- A run of one transaction is that transaction. -/
@[simp] theorem runAll_singleton {i : Instr} {s : State} : runAll [i] s = exec i s := by
  simp only [runAll]
  cases exec i s <;> rfl

/-- A run of two lists, one after the other. -/
theorem runAll_append_next {is js : List Instr} {s t : State} :
    runAll (is ++ js) s = .next t ↔ ∃ u, runAll is s = .next u ∧ runAll js u = .next t := by
  induction is generalizing s with
  | nil => simp [runAll]
  | cons i is ih =>
    simp only [List.cons_append, runAll_cons_next, ih]
    exact ⟨fun ⟨u, hu, v, hv, ht⟩ => ⟨v, ⟨u, hu, hv⟩, ht⟩, fun ⟨v, ⟨u, hu, hv⟩, ht⟩ => ⟨u, hu, v, hv, ht⟩⟩

end Sys2Proof.Machine
end

