-- ==== Sys2Proof/Laws/Exec.lean ====
section
/-! SUPPORT. What a transaction can do, said once: `exec_next_effect`. -/

namespace Sys2Proof.Machine

/-- The four conditions under which a rule meets a *none* value (R36, R140 code 7). -/
def MeetsNone (i : Instr) (s : State) : Prop :=
  (i = .service ∧ s.pending = true ∧
    (s.captVal = none ∨ s.captPol = none ∨ s.phase = .waitingForFalling ∧ s.rise = none)) ∨
  (i = .rdResult ∧ s.ready = true ∧ s.width = none)

/-- Which fault a transaction raises in a state, with its condition (R140, R144). -/
inductive Raises : Instr → State → FaultCode → Prop where
  | tickRange (s pol) (tick : BitVec 24) (range : s.cfg.M ≤ tick.toNat) : Raises (.capture pol tick) s .tickRange
  | edgeOverrun (s pol) (tick : BitVec 24) (below : tick.toNat < s.cfg.M) (pending : s.pending = true) :
      Raises (.capture pol tick) s .edgeOverrun
  | rdMisaligned (s off) (odd : misaligned off = true) : Raises (.rdOther off) s .busMisaligned
  | rdReserved (s off) (even : misaligned off = false) : Raises (.rdOther off) s .busReservedOffset
  | wrMisaligned (s off data) (odd : misaligned off = true) : Raises (.wrOther off data) s .busMisaligned
  | wrReserved (s off data) (even : misaligned off = false) : Raises (.wrOther off data) s .busReservedOffset
  | wrStatus (s data) : Raises (.wrStatus data) s .busWriteReadonly
  | wrResult (s data) : Raises (.wrResult data) s .busWriteReadonly
  | ctrlReserved (s data) (set : ctrlReservedSet (wdataOperand data) = true) :
      Raises (.wrCtrl data) s .ctrlReservedBits
  | noneMet (i s) (met : MeetsNone i s) : Raises i s .unwrittenRead

/-- The ways in which a transaction takes a state without FAULT to a next state. -/
inductive Effect : Instr → State → State → Prop where
  | raise (i s code) (cause : Raises i s code) : Effect i s (s.setFault { code := code, word := encode i })
  | reset (s) : Effect .reset s s.resetBlock
  | tick (s) : Effect .tick s (s.setCnt ((s.cnt + 1) % s.cfg.M))
  | capture (s pol) (tick : BitVec 24) (below : tick.toNat < s.cfg.M) (free : s.pending = false) :
      Effect (.capture pol tick) s ((s.setCapture (some tick.toNat) (some pol)).setPending true)
  | serviceIdle (s) (idle : s.pending = false) : Effect .service s s
  | serviceIgnored (s) (pending : s.pending = true) (checked : s.cfg.seqCheck = true)
      (ignored : edgeAccepted s = false) : Effect .service s (s.setPending false)
  | serviceRising (s v) (accepted : edgeAccepted s = true) (val : s.captVal = some v)
      (phase : s.phase = .waitingForRising) :
      Effect .service s (((s.setPending false).setRise (some v)).setPhase .waitingForFalling)
  | serviceFalling (s v r) (accepted : edgeAccepted s = true) (val : s.captVal = some v)
      (phase : s.phase = .waitingForFalling) (rise : s.rise = some r) :
      Effect .service s (((s.setPending false).latchWidth (computeWidth r v s.cfg.M)).setPhase .waitingForRising)
  | rdStatus (s) : Effect .rdStatus s (s.logResponse (statusWord s))
  | rdResult (s w) (ready : s.ready = true) (width : s.width = some w) :
      Effect .rdResult s ((s.setReady false).logResponse (resultWord s.cfg true w))
  | rdResultEmpty (s) (notReady : s.ready = false) :
      Effect .rdResult s (s.countDraw.logResponse (resultWord s.cfg false (drawnWidth s)))
  | rdCtrl (s) : Effect .rdCtrl s (s.logResponse ctrlWord)
  | abort (s data) (isAbort : isAbort (.wrCtrl data) = true) : Effect (.wrCtrl data) s s.abort
  | wrCtrlZero (s data) (clear : ctrlReservedSet (wdataOperand data) = false) (notAbort : isAbort (.wrCtrl data) = false) :
      Effect (.wrCtrl data) s s
  | cntClear (s) : Effect .cntClear s (s.setCnt 0)

/-- An accepted edge that is served takes one of the two branches or meets a *none* in RISE (R81 to R83). -/
theorem acceptEdge_effect {s t : State} {v : Nat} (hp : s.pending = true) (hv : s.captVal = some v)
    (ha : edgeAccepted s = true) (h : acceptEdge v s = .next t) : Effect .service s t := by
  rw [acceptEdge_next] at h
  obtain ⟨hph, h⟩ | ⟨hph, h⟩ := h
  · rw [risingBranch_next] at h
    subst h
    exact .serviceRising s v ha hv hph
  · rw [fallingBranch_next] at h
    obtain ⟨r, hr, rfl⟩ | ⟨hr, rfl⟩ := h
    · exact .serviceFalling s v r ha hv hph hr
    · exact .raise _ s _ <| .noneMet _ s <| .inl ⟨rfl, hp, .inr (.inr ⟨hph, hr⟩)⟩

theorem execService_effect {s t : State} (h : execService s = .next t) : Effect .service s t := by
  rw [execService, whileNoFault_next] at h
  obtain ⟨-, h⟩ := h
  split at h
  · rename_i hp
    rw [readWritten_next] at h
    obtain ⟨v, hv, h⟩ | ⟨hv, rfl⟩ := h
    · split at h
      · rename_i hq
        rw [readWritten_next] at h
        obtain ⟨p, hpol, h⟩ | ⟨hpol, rfl⟩ := h
        · split at h
          · rename_i hexp
            exact acceptEdge_effect hp hv (by simp [edgeAccepted, hp, hpol, hexp]) h
          · rename_i hexp
            cases h
            exact .serviceIgnored s hp hq (by simp [edgeAccepted, hp, hq, hpol, hexp])
        · exact .raise _ s _ <| .noneMet _ s <| .inl ⟨rfl, hp, .inr (.inl hpol)⟩
      · rename_i hq
        exact acceptEdge_effect hp hv (by simp [edgeAccepted, hp, hq]) h
    · exact .raise _ s _ <| .noneMet _ s <| .inl ⟨rfl, hp, .inl hv⟩
  · rename_i hp
    cases h
    exact .serviceIdle s (by simpa using hp)

theorem execRdResult_effect {s t : State} (h : execRdResult s = .next t) : Effect .rdResult s t := by
  rw [execRdResult, whileNoFault_next] at h
  obtain ⟨-, h⟩ := h
  split at h
  · rename_i hr
    rw [readWritten_next] at h
    obtain ⟨w, hw, h⟩ | ⟨hw, rfl⟩ := h
    · rw [answerRead_next] at h
      subst h
      exact .rdResult s w hr hw
    · exact .raise _ s _ <| .noneMet _ s <| .inr ⟨rfl, hr, hw⟩
  · rename_i hr
    rw [answerRead_next] at h
    subst h
    exact .rdResultEmpty s (by simpa using hr)

theorem execCapture_effect {pol : Polarity} {tick : BitVec 24} {s t : State}
    (h : execCapture pol tick s = .next t) : Effect (.capture pol tick) s t := by
  rw [execCapture, whileNoFault_next] at h
  obtain ⟨-, h⟩ := h
  by_cases hM : s.cfg.M ≤ tickOperand tick
  · rw [if_pos hM, raiseFault_next] at h
    subst h
    exact .raise _ s _ (.tickRange s pol tick hM)
  · rw [if_neg hM] at h
    cases hp : s.pending
    · rw [hp] at h
      cases h
      exact .capture s pol tick (Nat.lt_of_not_le hM) hp
    · rw [hp, if_pos rfl, raiseFault_next] at h
      subst h
      exact .raise _ s _ (.edgeOverrun s pol tick (Nat.lt_of_not_le hM) hp)

theorem execWrCtrl_effect {data : BitVec 16} {s t : State} (h : execWrCtrl data s = .next t) :
    Effect (.wrCtrl data) s t := by
  rw [execWrCtrl, whileNoFault_next] at h
  obtain ⟨-, h⟩ := h
  split at h <;> rename_i hr
  · rw [raiseFault_next] at h
    subst h
    exact .raise _ s _ (.ctrlReserved s data hr)
  · simp only [Bool.not_eq_true] at hr
    split at h <;> rename_i ha <;> cases h
    · exact .abort s data (by simp [isAbort, hr, ha])
    · exact .wrCtrlZero s data hr (by simp [isAbort, ha])

theorem execRdOther_effect {off : BitVec 8} {s t : State} (h : rejectOffset off (.rdOther off) s = .next t) :
    Effect (.rdOther off) s t := by
  rw [rejectOffset_next] at h
  subst h
  refine .raise _ s _ ?_
  split <;> rename_i ho
  · exact .rdMisaligned s off ho
  · exact .rdReserved s off (by simpa using ho)

theorem execWrOther_effect {off : BitVec 8} {data : BitVec 16} {s t : State}
    (h : rejectOffset off (.wrOther off data) s = .next t) : Effect (.wrOther off data) s t := by
  rw [rejectOffset_next] at h
  subst h
  refine .raise _ s _ ?_
  split <;> rename_i ho
  · exact .wrMisaligned s off data ho
  · exact .wrReserved s off data (by simpa using ho)

/-- A transaction answers a next state only while FAULT is *none*, and then by one of the effects above. -/
theorem exec_next_effect {i : Instr} {s t : State} (h : exec i s = .next t) : s.fault = none ∧ Effect i s t := by
  cases i with
  | reset =>
    obtain ⟨hf, h⟩ := whileNoFault_next.1 h
    cases h
    exact ⟨hf, .reset s⟩
  | tick =>
    obtain ⟨hf, h⟩ := whileNoFault_next.1 h
    cases h
    exact ⟨hf, .tick s⟩
  | capture pol tick => exact ⟨(whileNoFault_next.1 h).1, execCapture_effect h⟩
  | service => exact ⟨(whileNoFault_next.1 h).1, execService_effect h⟩
  | rdStatus =>
    obtain ⟨hf, h⟩ := whileNoFault_next.1 h
    cases h
    exact ⟨hf, .rdStatus s⟩
  | rdResult => exact ⟨(whileNoFault_next.1 h).1, execRdResult_effect h⟩
  | rdCtrl =>
    obtain ⟨hf, h⟩ := whileNoFault_next.1 h
    cases h
    exact ⟨hf, .rdCtrl s⟩
  | rdOther off =>
    obtain ⟨hf, h⟩ := whileNoFault_next.1 h
    exact ⟨hf, execRdOther_effect h⟩
  | wrCtrl data => exact ⟨(whileNoFault_next.1 h).1, execWrCtrl_effect h⟩
  | wrStatus data =>
    obtain ⟨hf, h⟩ := whileNoFault_next.1 h
    cases h
    exact ⟨hf, .raise _ s _ (.wrStatus s data)⟩
  | wrResult data =>
    obtain ⟨hf, h⟩ := whileNoFault_next.1 h
    cases h
    exact ⟨hf, .raise _ s _ (.wrResult s data)⟩
  | wrOther off data =>
    obtain ⟨hf, h⟩ := whileNoFault_next.1 h
    exact ⟨hf, execWrOther_effect h⟩
  | cntClear =>
    obtain ⟨hf, h⟩ := whileNoFault_next.1 h
    cases h
    exact ⟨hf, .cntClear s⟩

end Sys2Proof.Machine
end

