-- ==== Sys2Proof/Laws/PerInstr.lean ====
section
/-! SUPPORT. Facts about every transaction's encoding, one lemma per constructor of `Instr`. -/

/-! The field KIND of a transaction's word names its kind (30_encoding.md R61). -/
namespace Sys2Proof.Laws.KindField

def Statement (i : Instr) : Prop := kindOf (encode i) = some i.kind

theorem kindOf_of_field {w : Word} {k : Kind} {f : BitVec 4} (hf : kindField w = f) (hk : kindOfField f = some k) :
    kindOf w = some k := by
  unfold kindOf
  rw [hf, hk]

/-- Two four-bit fields are equal when their bits are. -/
theorem field_ext {v w : BitVec 4} (h0 : v.getLsbD 0 = w.getLsbD 0) (h1 : v.getLsbD 1 = w.getLsbD 1)
    (h2 : v.getLsbD 2 = w.getLsbD 2) (h3 : v.getLsbD 3 = w.getLsbD 3) : v = w := by
  apply BitVec.eq_of_getLsbD_eq
  intro i hi
  interval_cases i <;> assumption

theorem reset : Statement .reset := rfl
theorem tick : Statement .tick := rfl
theorem capture (pol : Polarity) (tick : BitVec 24) : Statement (.capture pol tick) := by
  refine kindOf_of_field (f := 0b0011#4) ?_ rfl
  cases pol <;> apply field_ext <;> simp [kindField, encode, polBits]
theorem service : Statement .service := rfl
theorem rdStatus : Statement .rdStatus := rfl
theorem rdResult : Statement .rdResult := rfl
theorem rdCtrl : Statement .rdCtrl := rfl
theorem rdOther (off : BitVec 8) : Statement (.rdOther off) := by
  refine kindOf_of_field (f := 0b0101#4) ?_ rfl
  apply field_ext <;> simp [kindField, encode]
theorem wrCtrl (data : BitVec 16) : Statement (.wrCtrl data) := by
  refine kindOf_of_field (f := 0b0110#4) ?_ rfl
  apply field_ext <;> simp [kindField, encode, dataBits]
theorem wrStatus (data : BitVec 16) : Statement (.wrStatus data) := by
  refine kindOf_of_field (f := 0b0110#4) ?_ rfl
  apply field_ext <;> simp [kindField, encode, dataBits]
theorem wrResult (data : BitVec 16) : Statement (.wrResult data) := by
  refine kindOf_of_field (f := 0b0110#4) ?_ rfl
  apply field_ext <;> simp [kindField, encode, dataBits]
theorem wrOther (off : BitVec 8) (data : BitVec 16) : Statement (.wrOther off data) := by
  refine kindOf_of_field (f := 0b0110#4) ?_ rfl
  apply field_ext <;> simp [kindField, encode, dataBits]
theorem cntClear : Statement .cntClear := rfl

end Sys2Proof.Laws.KindField

/-! Every bit that a format marks "must be 0" is 0 in a transaction's word (30_encoding.md R62 to R64). -/
namespace Sys2Proof.Laws.MustBeZero

def Statement (i : Instr) : Prop := encode i &&& mbzMask i.kind = 0#32

theorem reset : Statement .reset := rfl
theorem tick : Statement .tick := rfl
theorem capture (pol : Polarity) (tick : BitVec 24) : Statement (.capture pol tick) := by
  apply BitVec.eq_of_getLsbD_eq
  intro i hi
  cases pol <;> interval_cases i <;> simp [encode, polBits, mbzMask, Instr.kind]
theorem service : Statement .service := rfl
theorem rdStatus : Statement .rdStatus := rfl
theorem rdResult : Statement .rdResult := rfl
theorem rdCtrl : Statement .rdCtrl := rfl
theorem rdOther (off : BitVec 8) : Statement (.rdOther off) := by
  apply BitVec.eq_of_getLsbD_eq
  intro i hi
  interval_cases i <;> simp [encode, mbzMask, Instr.kind]
theorem wrCtrl (data : BitVec 16) : Statement (.wrCtrl data) := by
  apply BitVec.eq_of_getLsbD_eq
  intro i hi
  interval_cases i <;> simp [encode, dataBits, mbzMask, Instr.kind]
theorem wrStatus (data : BitVec 16) : Statement (.wrStatus data) := by
  apply BitVec.eq_of_getLsbD_eq
  intro i hi
  interval_cases i <;> simp [encode, dataBits, mbzMask, Instr.kind]
theorem wrResult (data : BitVec 16) : Statement (.wrResult data) := by
  apply BitVec.eq_of_getLsbD_eq
  intro i hi
  interval_cases i <;> simp [encode, dataBits, mbzMask, Instr.kind]
theorem wrOther (off : BitVec 8) (data : BitVec 16) : Statement (.wrOther off data) := by
  apply BitVec.eq_of_getLsbD_eq
  intro i hi
  interval_cases i <;> simp [encode, dataBits, mbzMask, Instr.kind]
theorem cntClear : Statement .cntClear := rfl

end Sys2Proof.Laws.MustBeZero
end

