-- ==== Sys2Proof/Laws/Runs.lean ====
section
/-! SUPPORT. What a run, finite or infinite, can do: its beginnings are runs of lists, and no state inside it has FAULT
set (00_scope.md R14, R15, 10_state.md R28). -/

namespace Sys2Proof.Machine

@[simp] theorem Run.after_zero (r : Run) (s : State) : r.after s 0 = .next s := by
  cases r <;> rfl

/-- One more transaction of an infinite sequence. -/
theorem Run.infinite_after_succ {tr : Nat → Instr} {s v : State} {n : Nat} :
    (Run.infinite tr).after s (n + 1) = .next v ↔
      ∃ u, (Run.infinite tr).after s n = .next u ∧ exec (tr n) u = .next v := by
  simp [Run.after, Run.first, List.range_succ, runAll_append_next]

/-- A finite run is a run of its list that passes through next states only. -/
theorem Run.finite_completes {is : List Instr} {s : State} (h : (Run.finite is).TakenFrom s) :
    ∃ t, runAll is s = .next t := by
  obtain rfl | ⟨js, i, rfl⟩ := List.eq_nil_or_concat is
  · exact ⟨s, rfl⟩
  · obtain ⟨-, u, v, hu, -, hv⟩ := h js.length i (by simp [Run.nth])
    have hjs : runAll js s = .next u := by simpa [Run.after, Run.first] using hu
    exact ⟨v, by
      rw [List.concat_eq_append, runAll_append_next]
      exact ⟨u, hjs, by rw [runAll_cons_next]; exact ⟨v, hv, rfl⟩⟩⟩

/-- An enabled agent means that no fault was raised. -/
theorem fault_none_of_enabled {a : Agent} {s : State} (h : agentEnabled a s = true) : s.fault = none := by
  simp only [agentEnabled, Bool.and_eq_true, Option.isNone_iff_eq_none] at h
  exact h.1

/-- Every state of an infinite run is reached, has FAULT *none* and takes the run's next transaction. -/
theorem Run.infinite_state {tr : Nat → Instr} {s : State} (h : (Run.infinite tr).TakenFrom s) (n : Nat) :
    ∃ u v, (Run.infinite tr).after s n = .next u ∧ u.fault = none ∧
      agentEnabled (kindAgent (tr n).kind) u = true ∧ exec (tr n) u = .next v := by
  obtain ⟨-, u, v, hu, he, hv⟩ := h n (tr n) rfl
  exact ⟨u, v, hu, fault_none_of_enabled he, he, hv⟩

/-- A sequence is an infinite run if what each of its transactions needs holds at the start and is kept. -/
theorem Run.infinite_takenFrom {tr : Nat → Instr} {s : State} {P : Nat → State → Prop} (start : P 0 s)
    (kept : ∀ n u, P n u → (tr n).wellFormed = true ∧ agentEnabled (kindAgent (tr n).kind) u = true ∧
      ∃ v, exec (tr n) u = .next v ∧ P (n + 1) v) :
    (Run.infinite tr).TakenFrom s ∧ ∀ n, ∃ u, (Run.infinite tr).after s n = .next u ∧ P n u := by
  have reached : ∀ n, ∃ u, (Run.infinite tr).after s n = .next u ∧ P n u := by
    intro n
    induction n with
    | zero => exact ⟨s, Run.after_zero _ s, start⟩
    | succ n ih =>
      obtain ⟨u, hu, hp⟩ := ih
      obtain ⟨-, -, v, hv, hp'⟩ := kept n u hp
      exact ⟨v, Run.infinite_after_succ.mpr ⟨u, hu, hv⟩, hp'⟩
  refine ⟨fun n i hi => ?_, reached⟩
  obtain rfl : tr n = i := by simpa [Run.nth] using hi
  obtain ⟨u, hu, hp⟩ := reached n
  obtain ⟨hw, he, v, hv, -⟩ := kept n u hp
  exact ⟨hw, u, v, hu, he, hv⟩

end Sys2Proof.Machine
end

