-- ==== Sys2Proof/Laws/Words.lean ====
section
/-! SUPPORT. Lemmas about words: rows of the opcode map that cannot both match, the fields of an encoded transaction, and
the data of a write of CTRL. -/

namespace Sys2Proof

/-- A word that one pair of mask and match takes is not taken by a pair that disagrees on the bits both fix. -/
theorem and_ne_of_and_eq {w m₁ m₂ a b : Word} (h : w &&& m₁ = a) (hab : a &&& m₂ ≠ b &&& m₁) : w &&& m₂ ≠ b := by
  intro h₂
  apply hab
  rw [← h, ← h₂, BitVec.and_assoc, BitVec.and_assoc, BitVec.and_comm m₁ m₂]

@[simp] theorem polField_encode_capture (pol : Polarity) (tick : BitVec 24) :
    polField (encode (.capture pol tick)) = pol := by
  cases pol <;> simp [polField, encode, polBits]

@[simp] theorem tickField_encode_capture (pol : Polarity) (tick : BitVec 24) :
    tickField (encode (.capture pol tick)) = tick := by
  apply BitVec.eq_of_getLsbD_eq
  intro i hi
  cases pol <;> interval_cases i <;> simp [tickField, encode, polBits]

@[simp] theorem offField_encode_rdOther (off : BitVec 8) : offField (encode (.rdOther off)) = off := by
  apply BitVec.eq_of_getLsbD_eq
  intro i hi
  interval_cases i <;> simp [offField, encode]

@[simp] theorem offField_encode_wrOther (off : BitVec 8) (data : BitVec 16) :
    offField (encode (.wrOther off data)) = off := by
  apply BitVec.eq_of_getLsbD_eq
  intro i hi
  interval_cases i <;> simp [offField, encode, dataBits]

namespace Machine

/-- Bits 31:1 of a write's data are zero exactly when the data is 0 or 1 (R65, R104). -/
theorem ctrlReservedSet_iff (data : BitVec 16) : ctrlReservedSet (wdataOperand data) = true ↔ 2 ≤ data.toNat := by
  have high : (wdataOperand data).extractLsb' 1 31 = BitVec.ofNat 31 (data.toNat / 2) := by
    apply BitVec.eq_of_toNat_eq
    have := data.isLt
    simp [wdataOperand, BitVec.extractLsb'_toNat, Nat.shiftRight_eq_div_pow]
    omega
  have zero : BitVec.ofNat 31 (data.toNat / 2) = 0 ↔ data.toNat < 2 := by
    have := data.isLt
    rw [← BitVec.toNat_inj]
    simp
    omega
  unfold ctrlReservedSet
  rw [high, bne_iff_ne, ne_eq, zero]
  omega

/-- Bit 0 of a write's data (R104). -/
theorem ctrlAbort_iff (data : BitVec 16) : ctrlAbort (wdataOperand data) = true ↔ data.toNat % 2 = 1 := by
  simp [ctrlAbort, wdataOperand, BitVec.getLsbD, Nat.testBit_zero]

/-- ABORT is the write of 1 to CTRL (R34, R104). -/
theorem isAbort_iff (i : Instr) : isAbort i = true ↔ i = .wrCtrl 1#16 := by
  cases i with
  | wrCtrl data =>
    have hr := ctrlReservedSet_iff data
    have ha := ctrlAbort_iff data
    simp only [isAbort, Bool.and_eq_true, Bool.not_eq_true', ← Bool.not_eq_true, hr, ha, Instr.wrCtrl.injEq,
      ← BitVec.toNat_inj, BitVec.toNat_ofNat]
    omega
  | _ => simp [isAbort]

end Machine

end Sys2Proof
end

