-- ==== Sys2Proof/Tests/Slice0.lean ====
section
/-! SUPPORT. Tests: the WellFormed smoke test, words written out from the encoding's fields, single steps from the vectors of
95_test_vectors.md, and for every statement with hypotheses a witness that meets them. -/

namespace Sys2Proof.Tests

open Sys2Proof Sys2Proof.Machine

/-! ### Helpers -/

/-- The reference configuration with SEQ_CHECK = true. -/
def checked : Config := { Config.reference with seqCheck := true }

/-- A configuration with the parameters given. -/
def params (M W : Nat) (seqCheck : Bool) : Config := { Config.reference with M := M, W := W, seqCheck := seqCheck }

/-- A block in the reference configuration with CNT = 0 and the flags given, as the vectors write it. -/
def block (p : Phase) (ready pending : Bool) : State :=
  { State.start Config.reference 0 with phase := p, ready := ready, pending := pending }

/-- Vector V3.2: 1/0/1, RISE = 100, CAPT = (1100, fall). -/
def falling : State :=
  { block .waitingForFalling false true with rise := some 100, captVal := some 1100, captPol := some .falling }

/-- Vector V3.2: 1/1/1, RISE = 2000, WIDTH = 1000, CAPT = (2500, fall). -/
def unread : State :=
  { block .waitingForFalling true true with
    rise := some 2000, width := some 1000, captVal := some 2500, captPol := some .falling }

/-- Vector V3.2: 0/0/1, CAPT = (100, rise). -/
def risen : State :=
  { block .waitingForRising false true with captVal := some 100, captPol := some .rising }

/-- Vector V4: 0/1/0, WIDTH = 65535, the largest width. -/
def latched : State := { block .waitingForRising true false with width := some 65535 }

/-- A faulted state (vector V6). -/
def faulted : State := { block .waitingForRising false true with fault := some ⟨.edgeOverrun, 0x3000044C#32⟩ }

/-- The next state of an outcome. -/
def next? (r : Result) : Option State :=
  match r with
  | .next t => some t
  | .fault _ => none
  | .refused _ => none

/-- The next state of an outcome that is one, else the state given. -/
def nextOr (s : State) (r : Result) : State := (next? r).getD s

theorem reference_wf : Config.reference.WF := ⟨by decide, by decide, by decide, by decide⟩

theorem start_inv : (State.start Config.reference 0).Inv := by
  refine ⟨reference_wf, ?_, ?_, ?_, ?_, ?_, ?_, ?_, ?_⟩ <;> simp [State.start, Config.reference]

theorem risen_inv : risen.Inv := by
  refine ⟨reference_wf, ?_, ?_, ?_, ?_, ?_, ?_, ?_, ?_⟩ <;> simp [risen, block, State.start, Config.reference]

theorem falling_inv : falling.Inv := by
  refine ⟨reference_wf, ?_, ?_, ?_, ?_, ?_, ?_, ?_, ?_⟩ <;> simp [falling, block, State.start, Config.reference]

theorem unread_inv : unread.Inv := by
  refine ⟨reference_wf, ?_, ?_, ?_, ?_, ?_, ?_, ?_, ?_⟩ <;> simp [unread, block, State.start, Config.reference]

theorem latched_inv : latched.Inv := by
  refine ⟨reference_wf, ?_, ?_, ?_, ?_, ?_, ?_, ?_, ?_⟩ <;> simp [latched, block, State.start, Config.reference]

/-! ### WellFormed refuses an ill-formed term for each check (R67) -/

theorem test_rd_other_of_status_ill_formed : (Instr.rdOther 0x00#8).wellFormed = false := by decide
theorem test_rd_other_of_result_ill_formed : (Instr.rdOther 0x04#8).wellFormed = false := by decide
theorem test_wr_other_of_ctrl_ill_formed : (Instr.wrOther 0x08#8 1#16).wellFormed = false := by decide
theorem test_wr_other_of_status_ill_formed : (Instr.wrOther 0x00#8 0#16).wellFormed = false := by decide

/-! ### Decoding: words written out field by field (R61 to R64) -/

theorem test_decode_reset : decode (0b0001#4 ++ 0#28) = .transaction .reset := by decide
theorem test_decode_tick : decode (0b0010#4 ++ 0#28) = .transaction .tick := by decide
theorem test_decode_capture_rise :
    decode (0b0011#4 ++ 0b1#1 ++ 0b000#3 ++ 0b000000000000000001100100#24) = .transaction (.capture .rising 100#24) := by
  decide
theorem test_decode_capture_fall :
    decode (0b0011#4 ++ 0b0#1 ++ 0b000#3 ++ 0b100000000000000000000001#24) =
      .transaction (.capture .falling 8388609#24) := by
  decide
theorem test_decode_service : decode (0b0100#4 ++ 0#28) = .transaction .service := by decide
theorem test_decode_rd_status : decode (0b0101#4 ++ 0b0000#4 ++ 0#16 ++ 0x00#8) = .transaction .rdStatus := by decide
theorem test_decode_rd_result : decode (0b0101#4 ++ 0b0000#4 ++ 0#16 ++ 0x04#8) = .transaction .rdResult := by decide
theorem test_decode_rd_ctrl : decode (0b0101#4 ++ 0b0000#4 ++ 0#16 ++ 0x08#8) = .transaction .rdCtrl := by decide
theorem test_decode_rd_other :
    decode (0b0101#4 ++ 0b0000#4 ++ 0#16 ++ 0b11111111#8) = .transaction (.rdOther 255#8) := by decide
theorem test_decode_wr_ctrl :
    decode (0b0110#4 ++ 0b0000#4 ++ 0b1000000000000001#16 ++ 0x08#8) = .transaction (.wrCtrl 32769#16) := by decide
theorem test_decode_wr_status :
    decode (0b0110#4 ++ 0b0000#4 ++ 0b0000000000000010#16 ++ 0x00#8) = .transaction (.wrStatus 2#16) := by decide
theorem test_decode_wr_result :
    decode (0b0110#4 ++ 0b0000#4 ++ 0b0100000000000000#16 ++ 0x04#8) = .transaction (.wrResult 16384#16) := by decide
theorem test_decode_wr_other :
    decode (0b0110#4 ++ 0b0000#4 ++ 0b0000000000000001#16 ++ 0b00001001#8) = .transaction (.wrOther 9#8 1#16) := by
  decide
theorem test_decode_cnt_clear : decode (0b0111#4 ++ 0#28) = .transaction .cntClear := by decide
theorem test_refuse_format_n_bit_27 : decode 0x48000000#32 = .refuse .nonzeroMbz := by decide
theorem test_refuse_busrd_bit_8 : decode 0x50000104#32 = .refuse .nonzeroMbz := by decide
theorem test_refuse_kind_15 : decode 0xF0000000#32 = .refuse .reservedKind := by decide
theorem test_table_word : decodeTableWord 32 0x38000064 = some (.capture .rising 100#24) := by decide

/-! ### Single transactions, from 95_test_vectors.md -/

/-- V6. -/
theorem test_reset_keeps_cnt :
    (next? (exec .reset { unread with cnt := 77 })).map (fun t => (t.cnt, t.rise, t.width)) = some (77, none, none) := by
  decide
theorem test_reset_from_a_fault_has_no_step : next? (exec .reset faulted) = none := by decide
/-- V5. -/
theorem test_tick_wraps :
    (next? (exec .tick (State.start Config.reference 65535))).map (·.cnt) = some 0 := by decide
theorem test_tick_wraps_at_1000 :
    (next? (exec .tick (State.start (params 1000 16 false) 999))).map (·.cnt) = some 0 := by decide
/-- V2: TICK_RANGE is checked before EDGE_OVERRUN. -/
theorem test_capture_range_before_overrun :
    (next? (exec (.capture .falling 70000#24) risen)).map (·.fault) = some (some ⟨.tickRange, 0x30011170#32⟩) := by
  decide
theorem test_capture_overrun :
    (next? (exec (.capture .falling 2#24) risen)).map (fun t => (t.fault, t.captVal)) =
      some (some ⟨.edgeOverrun, 0x30000002#32⟩, some 100) := by
  decide
/-- V3.2: the width 500 is dropped. -/
theorem test_service_drops :
    (next? (exec .service unread)).map (fun t => (t.width, t.phase)) = some (some 1000, .waitingForRising) := by
  decide
/-- V3.2: a rising edge in WAITING_FOR_FALLING closes the pair without SEQ_CHECK. -/
theorem test_service_takes_a_rising_edge_as_falling :
    (next? (exec .service { falling with captVal := some 150, captPol := some .rising })).map (·.width) =
      some (some 50) := by
  decide
/-- V4. -/
theorem test_rd_status_all_flags :
    (next? (exec .rdStatus (block .waitingForFalling true true))).map (·.log) = some [0x00000007#32] := by decide
theorem test_rd_status_pending :
    (next? (exec .rdStatus (block .waitingForRising false true))).map (·.log) = some [0x00000004#32] := by decide
theorem test_rd_result_largest :
    (next? (exec .rdResult latched)).map (fun t => (t.log, t.ready)) = some ([0x8000FFFF#32], false) := by decide
theorem test_rd_result_zero_width :
    (next? (exec .rdResult { latched with width := some 0 })).map (·.log) = some [0x80000000#32] := by decide
theorem test_rd_ctrl_answers_zero : (next? (exec .rdCtrl unread)).map (·.log) = some [0x00000000#32] := by decide
theorem test_rd_other_0c :
    (next? (exec (.rdOther 0x0C#8) latched)).map (fun t => (t.fault, t.log)) =
      some (some ⟨.busReservedOffset, 0x5000000C#32⟩, []) := by
  decide
theorem test_rd_other_ff :
    (next? (exec (.rdOther 0xFF#8) latched)).map (·.fault) = some (some ⟨.busMisaligned, 0x500000FF#32⟩) := by decide
theorem test_wr_ctrl_abort :
    (next? (exec (.wrCtrl 1#16) unread)).map (fun t => (statusWord t, t.width)) = some (0#32, some 1000) := by decide
theorem test_wr_ctrl_reserved :
    (next? (exec (.wrCtrl 0xFFFF#16) unread)).map (·.fault) = some (some ⟨.ctrlReservedBits, 0x60FFFF08#32⟩) := by decide
theorem test_wr_status_faults :
    (next? (exec (.wrStatus 0#16) latched)).map (·.fault) = some (some ⟨.busWriteReadonly, 0x60000000#32⟩) := by decide
theorem test_wr_result_keeps_ready :
    (next? (exec (.wrResult 0#16) latched)).map (fun t => (t.fault, t.ready)) =
      some (some ⟨.busWriteReadonly, 0x60000004#32⟩, true) := by
  decide
theorem test_wr_other_misaligned :
    (next? (exec (.wrOther 0x09#8 1#16) latched)).map (·.fault) = some (some ⟨.busMisaligned, 0x60000109#32⟩) := by decide
theorem test_wr_other_reserved :
    (next? (exec (.wrOther 0x0C#8 1#16) latched)).map (·.fault) = some (some ⟨.busReservedOffset, 0x6000010C#32⟩) := by
  decide
theorem test_cnt_clear :
    (next? (exec .cntClear (State.start Config.reference 1234))).map (·.cnt) = some 0 := by decide

/-! ### The step, the window and the script syntax -/

theorem test_step_runs_the_fetch_word :
    step (State.reset.withFetchWord 32 0x38000064) = exec (.capture .rising 100#24) State.reset := by rfl
theorem test_step_refuses :
    (next? (step (State.reset.withFetchWord 32 0x10000001))).map (fun t => (t.refused, t.phase)) =
      some (true, .waitingForRising) := by
  decide
theorem test_window_offset : windowOffset { params 65536 16 false with base := 4096 } 4100 = some 0x04#8 := by decide
theorem test_window_address : windowAddress { params 65536 16 false with base := 4096 } 0xFC#8 = 4348 := by decide
theorem test_bus_read_of_04_is_rd_result : busReadInstr 0x04#8 = .rdResult := by decide
/-- R73: `wr 9, 0x1 ; c`. -/
theorem test_parse_write :
    assembleText [['w', 'r', ' ', '9', ',', ' ', '0', 'x', '1', ' ', ';', ' ', 'c']] = some [0x60000109#32] := by decide
/-- R73: an operand out of range is rejected. -/
theorem test_parse_rejects_off_256 : assembleText [['r', 'd', ' ', '2', '5', '6']] = none := by decide
/-- L1.5, R162. -/
theorem test_distance_of_1000_ticks : distanceCm 343 2667 1000 = 45 := by decide

/-! ### Witnesses: for every statement with hypotheses, a state and operands that meet all of them -/

theorem witness_DecodeOfEncodeIsTheTransaction :
    (Instr.rdOther 0x0C#8).wellFormed = true ∧ (Instr.wrOther 0xFF#8 0xFFFF#16).wellFormed = true := by decide
theorem witness_EncodeOfDecodeIsTheWord : decode 0x60FFFFFF#32 = .transaction (.wrOther 0xFF#8 0xFFFF#16) := by decide
theorem witness_RowsOverlapOnlyAtTheOtherOffsets :
    (rowMatches 0x50000004#32 opcodeRows[5] = true ∧ rowMatches 0x50000004#32 opcodeRows[7] = true) ∧
    (rowMatches 0x60000108#32 opcodeRows[8] = true ∧ rowMatches 0x60000108#32 opcodeRows[11] = true) := by decide
theorem witness_RefusedExactlyForReservedKindOrNonzeroBit :
    kindOf 0x80000000#32 = none ∧ (kindOf 0x68000108#32 = some .buswr ∧ 0x68000108#32 &&& mbzMask .buswr ≠ 0#32) ∧
    (kindOf 0x60000108#32 = some .buswr ∧ 0x60000108#32 &&& mbzMask .buswr = 0#32) ∧
    decode 0x00000000#32 = .refuse .reservedKind ∧ latched.fault = none ∧ latched.refused = false := by decide
theorem witness_OperandsAreTheUnsignedFields :
    decode 0x38FFFFFF#32 = .transaction (.capture .rising 0xFFFFFF#24) ∧
    decode 0x500000FF#32 = .transaction (.rdOther 0xFF#8) ∧ decode 0x60FFFF08#32 = .transaction (.wrCtrl 0xFFFF#16) ∧
    decode 0x60FFFF00#32 = .transaction (.wrStatus 0xFFFF#16) ∧
    decode 0x60FFFF04#32 = .transaction (.wrResult 0xFFFF#16) ∧
    decode 0x60FFFF0C#32 = .transaction (.wrOther 0x0C#8 0xFFFF#16) := by decide
theorem witness_AssembledLinesDecode :
    asmInRange (.captureRise 16777215) = true ∧ asmInRange (.wr 255 65535) = true ∧
    asmInRange (.captureRise 16777216) = false ∧ asmInRange (.rd 256) = false ∧ asmInRange (.wrCtrl 65536) = false := by
  decide
theorem witness_CaptureLatchesOrFaults :
    latched.fault = none ∧ (65535#24).toNat < latched.cfg.M ∧ latched.pending = false ∧
    latched.cfg.M ≤ (65536#24).toNat ∧ risen.fault = none ∧ risen.pending = true := by decide
theorem witness_ServiceRisingBranchRecordsTheEdge :
    risen.fault = none ∧ edgeAccepted risen = true ∧ risen.captVal = some 100 ∧ risen.phase = .waitingForRising := by
  decide
theorem witness_ServiceFallingBranchLatchesOrDropsTheWidth :
    (falling.fault = none ∧ edgeAccepted falling = true ∧ falling.captVal = some 1100 ∧
      falling.phase = .waitingForFalling ∧ falling.rise = some 100 ∧ 1100 < falling.cfg.M ∧ falling.ready = false) ∧
    (unread.fault = none ∧ edgeAccepted unread = true ∧ unread.captVal = some 2500 ∧
      unread.phase = .waitingForFalling ∧ unread.rise = some 2000 ∧ 2500 < unread.cfg.M ∧ unread.ready = true) := by
  decide
theorem witness_ServiceIgnoresAnEdgeOutOfSequence :
    ∃ s : State, s.fault = none ∧ s.pending = true ∧ s.cfg.seqCheck = true ∧ s.captVal = some 100 ∧
      s.captPol = some .rising ∧ Polarity.rising ≠ expectedPolarity s.phase :=
  ⟨{ risen with cfg := checked, phase := .waitingForFalling }, by decide⟩
theorem witness_PolarityIsNotReadWithoutTheCheck :
    risen.cfg.seqCheck = false ∧ (next? (exec .service risen)).isSome = true := by decide
theorem witness_ServiceWithNothingPendingChangesNothing : latched.fault = none ∧ latched.pending = false := by decide
theorem witness_ComputeWidthIsTheDifferenceModM : 0 < 1 ∧ 65535 < 65536 ∧ 0 < 65536 ∧ 65536 ≤ 2 ^ 16 := by decide
theorem witness_WrappingSubtractionOnlyForAFullModulus :
    65535 < 2 ^ 16 ∧ 1000 < 2 ^ 16 ∧ 900 < 1000 ∧ 100 < 900 := by decide
theorem witness_WidthCornersAreZeroAndTheLargest : 1 ≤ 1 ∧ 1 ≤ 2 ∧ 2 ≤ 2 ∧ 0 < 1 := by decide
theorem witness_PhaseAlternatesOnAcceptedEdgesOnly :
    ((next? (exec .service falling)).map (fun t => (t.fault, t.ready)) = some (none, true) ∧
      edgeAccepted falling = true ∧ falling.ready = false) ∧
    (isAbort (.wrCtrl 1#16) = true ∧ (next? (exec (.wrCtrl 1#16) unread)).map (·.fault) = some none) ∧
    (isAbort (.wrCtrl 0#16) = false ∧ (next? (exec (.wrCtrl 0#16) unread)).map (·.fault) = some none) := by decide
theorem witness_CheckedPulsesRunFromRisingToFalling :
    (checked.seqCheck = true ∧ risen.phase = .waitingForRising ∧
      (next? (exec .service { risen with cfg := checked })).map (·.phase) = some .waitingForFalling) ∧
    ((next? (exec .service { falling with cfg := checked })).map (·.width) = some (some 1000) ∧
      falling.width = none) := by decide
theorem witness_ReadStatusShowsTheFlags : unread.fault = none := by decide
theorem witness_ReadResultDeliversTheWidthAndClearsReady :
    latched.fault = none ∧ latched.cfg.WF ∧ latched.ready = true ∧ latched.width = some 65535 ∧
      65535 < latched.cfg.M := ⟨rfl, reference_wf, rfl, rfl, by decide⟩
theorem witness_ReadResultWithoutAResultAnswersADraw :
    falling.fault = none ∧ falling.cfg.WF ∧ falling.ready = false := ⟨rfl, reference_wf, rfl⟩
theorem witness_ReadCtrlAnswersZero : latched.fault = none := by decide
theorem witness_WriteCtrlAbortsOrFaults :
    unread.fault = none ∧ 2 ≤ (2#16).toNat ∧ (1#16).toNat = 1 ∧ (0#16).toNat = 0 := by decide
theorem witness_WritesToReadOnlyRegistersFault : latched.fault = none := by decide
theorem witness_OtherOffsetsFault :
    latched.fault = none ∧ (registerOffsets.contains 0x01#8 = false ∧ (0x01#8).toNat % 4 ≠ 0) ∧
    (registerOffsets.contains 0x0C#8 = false ∧ (0x0C#8).toNat % 4 = 0) ∧
    (registerOffsets.contains 0xFC#8 = false ∧ (0xFC#8).toNat % 4 = 0) := by decide
theorem witness_OnlyCompletedReadsAppendToTheLog :
    (isBusRead .rdCtrl = true ∧ (next? (exec .rdCtrl latched)).map (·.fault) = some none) ∧
    (isBusRead .tick = false ∧ (next? (exec .tick latched)).isSome = true) ∧
    (next? (exec (.rdOther 0x01#8) latched)).map (·.fault) = some (some ⟨.busMisaligned, 0x50000001#32⟩) := by decide
theorem witness_OneWriterAndOneReaderOfTheResult :
    ((next? (exec .service falling)).map (fun t => (t.width, t.ready)) = some (some 1000, true) ∧
      falling.width = none ∧ falling.ready = false) ∧
    ((next? (exec .rdResult latched)).map (·.ready) = some false ∧ latched.ready = true) := by decide
theorem witness_ConsumedResultStaysConsumed :
    latched.ready = true ∧ (next? (exec .rdResult latched)).map (·.fault) = some none ∧
    (next? (runAll [.tick, .rdCtrl] (nextOr latched (exec .rdResult latched)))).isSome = true ∧
    countAlong latchesHere [.tick, .rdCtrl] (nextOr latched (exec .rdResult latched)) = 0 := by decide
theorem witness_PollThenReadIsRaceFree :
    unread.Inv ∧ unread.ready = true ∧ unread.width = some 1000 ∧
    (∀ i ∈ [Instr.rdStatus, .service, .tick], i ≠ .rdResult ∧ i ≠ .reset ∧ isAbort i = false) ∧
    (next? (runAll [.rdStatus, .service, .tick] unread)).map (·.fault) = some none :=
  ⟨unread_inv, rfl, rfl, by decide, by decide⟩
theorem witness_EveryLatchedWidthIsDeliveredAtMostOnce :
    falling.Inv ∧ (next? (runAll [.service, .rdResult] falling)).isSome = true ∧
    countAlong latchesHere [.service, .rdResult] falling = 1 ∧ countAlong deliversHere [.service, .rdResult] falling = 1 :=
  ⟨falling_inv, by decide, by decide, by decide⟩
theorem witness_ServiceAndReadResultBothOrdersAnswerTheResult :
    unread.Inv ∧ unread.fault = none ∧ unread.ready = true ∧ unread.width = some 1000 := ⟨unread_inv, rfl, rfl, rfl⟩
theorem witness_TickAdvancesTheCounter :
    (State.start Config.reference 65535).fault = none ∧
    (State.start Config.reference 65535).cnt + 1 = (State.start Config.reference 65535).cfg.M ∧
    (State.start (params 1 1 false) 0).cfg.M = 1 := by decide
theorem witness_CntClearZeroesTheCounter : unread.fault = none := by decide
theorem witness_CounterMovesByTheTicksOfTheRun :
    latched.cnt < latched.cfg.M ∧ .cntClear ∉ [Instr.tick, .reset, .tick] ∧
    (next? (runAll [.tick, .reset, .tick] latched)).isSome = true := by decide

/-- A pulse of three ticks with M = 2, so that the counter wraps once, from CNT = 0. -/
def small : State := State.start (params 2 1 true) 0

theorem small_inv : small.Inv := by
  refine ⟨⟨by decide, by decide, by decide, by decide⟩, ?_, ?_, ?_, ?_, ?_, ?_, ?_, ?_⟩ <;>
    simp [small, State.start, params]

/-- The state of the falling edge of a pulse from `s`. -/
def fallingEdge (s : State) (seg : List Instr) : State := nextOr s (runAll (captureAtCnt .rising s :: seg) s)

/-- The last state of a pulse from `s`. -/
def pulseEnd (s : State) (seg rest : List Instr) : State :=
  nextOr s (runAll (captureAtCnt .falling (fallingEdge s seg) :: (rest ++ [.service])) (fallingEdge s seg))

theorem witness_MeasuredWidthIsTheDurationModM :
    MeasuredPulse small [.tick, .service, .rdStatus, .tick, .tick] [.tick, .wrCtrl 0#16]
      (fallingEdge small [.tick, .service, .rdStatus, .tick, .tick])
      (pulseEnd small [.tick, .service, .rdStatus, .tick, .tick] [.tick, .wrCtrl 0#16]) ∧
    .cntClear ∉ [Instr.tick, .service, .rdStatus, .tick, .tick] :=
  ⟨⟨small_inv, rfl, ⟨rfl, rfl⟩, rfl, by decide, by decide, by decide, rfl, rfl⟩, by decide⟩
theorem witness_MeasuredPulseCompletes :
    small.Inv ∧ small.fault = none ∧ Armed small ∧ small.ready = false ∧
    [Instr.service, .cntClear].all insidePulse = true ∧ Instr.service ∈ [Instr.service, .cntClear] ∧
    [Instr.rdResult].all quiet = true :=
  ⟨small_inv, rfl, ⟨rfl, rfl⟩, rfl, by decide, by decide, by decide⟩
/-- The clauses of a duration below M, at least M, and a multiple of M. -/
theorem witness_WidthIsTheDurationExactlyBelowM :
    (MeasuredPulse small [.service, .tick] [] (fallingEdge small [.service, .tick]) (pulseEnd small [.service, .tick] []) ∧
      tickCount [.service, .tick] = 1) ∧
    (MeasuredPulse small [.service, .tick, .tick] [] (fallingEdge small [.service, .tick, .tick])
        (pulseEnd small [.service, .tick, .tick] []) ∧
      tickCount [.service, .tick, .tick] = 2 ∧ small.cfg.M ≤ 2 ∧ 2 % small.cfg.M = 0) :=
  ⟨⟨⟨small_inv, rfl, ⟨rfl, rfl⟩, rfl, by decide, by decide, by decide, rfl, rfl⟩, by decide⟩,
   ⟨⟨small_inv, rfl, ⟨rfl, rfl⟩, rfl, by decide, by decide, by decide, rfl, rfl⟩, by decide⟩⟩
theorem witness_OneWrapDoesNotMakeAWidthCorrect :
    MeasuredPulse small [.service, .tick] [] (fallingEdge small [.service, .tick]) (pulseEnd small [.service, .tick] []) ∧
    .cntClear ∉ [Instr.service, .tick] ∧
    (pulseEnd small [.service, .tick] []).width = some (tickCount [.service, .tick]) :=
  ⟨⟨small_inv, rfl, ⟨rfl, rfl⟩, rfl, by decide, by decide, by decide, rfl, rfl⟩, by decide, by decide⟩
theorem witness_WidthCountsOnlyTicksAfterTheLastClear :
    MeasuredPulse small ([.service, .tick] ++ .cntClear :: [.tick]) []
      (fallingEdge small ([.service, .tick] ++ .cntClear :: [.tick]))
      (pulseEnd small ([.service, .tick] ++ .cntClear :: [.tick]) []) ∧ .cntClear ∉ [Instr.tick] :=
  ⟨⟨small_inv, rfl, ⟨rfl, rfl⟩, rfl, by decide, by decide, by decide, rfl, rfl⟩, by decide⟩
/-- Both edges coincide with a tick, the first ordered before it and the second after it. -/
theorem witness_TickCountIsWithinOneTickOfThePulse : CountAt 2667 5334 1 ∧ CountAt 2667 (5334 + 2667) 3 := by decide
theorem witness_NoStepOnceFaultIsSet : faulted.fault = some ⟨.edgeOverrun, 0x3000044C#32⟩ := by decide
theorem witness_RaisingAFaultChangesNothingElse :
    (next? (exec (.wrStatus 0#16) latched)).map (·.fault) = some (some ⟨.busWriteReadonly, 0x60000000#32⟩) := by decide
theorem witness_FaultsExactlyOnTheirConditions :
    unread.Inv ∧ (next? (exec .service unread)).isSome = true ∧
    (next? (exec (.capture .rising 65536#24) unread)).isSome = true :=
  ⟨unread_inv, by decide, by decide⟩
theorem witness_TheBlockNeverStopsWithoutAFault : unread.fault = none := by decide
/-- The engine serves the falling edge at once, and then the counter ticks for ever. -/
def servedThenTicks : Nat → Instr
  | 0 => .service
  | _ + 1 => .tick
theorem witness_FairEngineServesEveryPendingCapture :
    (Run.infinite servedThenTicks).TakenFrom falling ∧ WeaklyFair servedThenTicks falling ∧
    falling.pending = true ∧ edgeAccepted falling = true ∧ falling.phase = .waitingForFalling ∧ falling.ready = false := by
  have kept := Run.infinite_takenFrom (tr := servedThenTicks) (s := falling)
    (P := fun n u => if n = 0 then u = falling else u.fault = none ∧ u.pending = false) rfl (by
      intro n u hu
      cases n with
      | zero => subst hu; exact ⟨rfl, rfl, _, rfl, rfl, rfl⟩
      | succ n => exact ⟨rfl, by simp [agentEnabled, servedThenTicks, Instr.kind, kindAgent, hu.1],
          _, by simp only [servedThenTicks, exec, execTick]; exact whileNoFault_of_none hu.1 _,
          by simpa using hu⟩)
  refine ⟨kept.1, fun n => ⟨n + 1, by omega, .inr ?_⟩, rfl, rfl, rfl, rfl⟩
  obtain ⟨u, hu, -, hp⟩ := kept.2 (n + 1)
  exact ⟨u, hu, by simp [agentEnabled, hp]⟩
theorem witness_ContractKeepingRunsNeverFault :
    unread.Inv ∧ unread.fault = none ∧
    keepsContract unread.cfg.M unread.pending [.service, .capture .rising 65535#24, .wrCtrl 1#16, .capture .falling 0#24]
      = true := ⟨unread_inv, rfl, by decide⟩
theorem witness_IrqFollowsThePendingCapture :
    ((next? (exec (.capture .rising 0#24) latched)).map (·.fault) = some none ∧ irq latched = false) ∧
    ((next? (exec .service unread)).map (·.fault) = some none ∧ irq unread = true) := by decide
theorem witness_HostConversionAndItsOverflow : 65535 ≤ 65535 := by decide
theorem witness_ResetClearsTheBlock : unread.fault = none := by decide
theorem witness_AbortAndResetCannotBeToldApart :
    (next? (exec .reset unread)).isSome = true ∧ (next? (exec (.wrCtrl 1#16) unread)).isSome = true ∧
    (next? (runAll [.rdStatus, .capture .rising 5#24, .service] (nextOr unread (exec .reset unread)))).isSome = true := by
  decide
theorem witness_StepsKeepStatesIndistinguishable :
    SameObservable latched { latched with rise := some 5, captVal := some 6 } ∧
    (next? (exec .rdResult latched)).isSome = true := by
  refine ⟨?_, by decide⟩
  constructor <;> simp [latched, block, State.start]
theorem witness_InvariantHoldsAtTheStart :
    (params 16777216 24 true).WF ∧ 16777215 < 16777216 :=
  ⟨⟨by decide, by decide, by decide, by decide⟩, by decide⟩
theorem witness_EveryStepKeepsTheInvariant :
    falling.Inv ∧ (next? (step { falling with script := [0x40000000#32] })).map (·.width) = some (some 1000) :=
  ⟨falling_inv, by decide⟩
theorem witness_UnwrittenReadIsUnreachable :
    Config.reference.WF ∧ 0 < Config.reference.M ∧
    (runWords [0x38000064#32, 0x3000044C#32] (State.start Config.reference 0)).fault =
      some ⟨.edgeOverrun, 0x3000044C#32⟩ := ⟨reference_wf, by decide, by decide⟩
theorem witness_StepsKeepTheParametersAndTakeOneWord :
    (next? (step { latched with script := [0x20000000#32, 0x50000000#32] })).map (·.script) = some [0x50000000#32] := by
  decide
theorem witness_StepRunsTheDecodedTransaction :
    latched.fault = none ∧ latched.refused = false ∧ decode 0x500000FC#32 = .transaction (.rdOther 0xFC#8) ∧
    (Instr.rdOther 0xFC#8).wellFormed = true ∧ decode 0x90000000#32 = .refuse .reservedKind ∧ latched.script = [] ∧
    ({ latched with refused := true } : State).refused = true := by decide
theorem witness_StepsApplyTheScriptInOrder :
    risen.script = [] ∧ (runWords [0x40000000#32, 0x50000000#32] risen).fault = none ∧
    (runWords [0x40000000#32, 0x50000000#32] risen).refused = false := by decide
theorem witness_NoWordIsAppliedAfterTheEnd :
    (runWords [0x10000001#32] latched).refused = true ∧
    ¬ (runWords [0x10000001#32] latched).Good :=
  ⟨by decide, fun h => absurd h.notRefused (by decide)⟩
theorem witness_FirstEdgeAfterResetStartsAPulse :
    (params 65536 16 true).WF ∧ (65535#24).toNat < 65536 :=
  ⟨⟨by decide, by decide, by decide, by decide⟩, by decide⟩

end Sys2Proof.Tests
end

section
/-! PROOFS. Scope and scripts (00_scope.md): O55 to O58. -/

namespace Sys2Proof.Machine

/-! ### Every transaction answers a next state while FAULT is *none*

A raised fault is itself a next state (R141), so only the guards of a transaction and of a script can stop. -/

/-- The outcome is a next state. -/
def Answers (k : Result) : Prop := ∃ t, k = .next t

theorem answers_next (t : State) : Answers (.next t) := ⟨t, rfl⟩

theorem answers_raiseFault (code : FaultCode) (i : Instr) (s : State) : Answers (raiseFault code i s) :=
  ⟨_, rfl⟩

theorem answers_answerRead (resp : Word) (s : State) : Answers (answerRead resp s) := ⟨_, rfl⟩

theorem answers_ite {c : Prop} [Decidable c] {k l : Result} (hk : Answers k) (hl : Answers l) :
    Answers (if c then k else l) := by
  split
  · exact hk
  · exact hl

theorem answers_readWritten {α : Type} {o : Option α} {i : Instr} {s : State} {k : α → Result}
    (hk : ∀ v, Answers (k v)) : Answers (readWritten o i s k) := by
  cases o with
  | none => exact answers_raiseFault _ _ _
  | some v => exact hk v

theorem answers_whileNoFault {s : State} {k : Result} (hf : s.fault = none) (hk : Answers k) :
    Answers (whileNoFault s k) := by
  rwa [whileNoFault_of_none hf]

theorem answers_rejectOffset (off : BitVec 8) (i : Instr) (s : State) : Answers (rejectOffset off i s) :=
  answers_ite (answers_raiseFault _ _ _) (answers_raiseFault _ _ _)

theorem answers_acceptEdge (v : Nat) (s : State) : Answers (acceptEdge v s) := by
  unfold acceptEdge
  cases s.phase with
  | waitingForRising => exact answers_next _
  | waitingForFalling => exact answers_readWritten fun _ => answers_next _

/-- No transaction stops while FAULT is *none* (R28, R141). -/
theorem answers_exec (i : Instr) {s : State} (hf : s.fault = none) : Answers (exec i s) := by
  cases i <;> refine answers_whileNoFault hf ?_
  case reset | tick | cntClear => exact answers_next _
  case rdStatus | rdCtrl => exact answers_answerRead _ _
  case wrStatus | wrResult => exact answers_raiseFault _ _ _
  case rdOther | wrOther => exact answers_rejectOffset _ _ _
  case capture => exact answers_ite (answers_raiseFault _ _ _) (answers_ite (answers_raiseFault _ _ _) (answers_next _))
  case wrCtrl => exact answers_ite (answers_raiseFault _ _ _) (answers_ite (answers_next _) (answers_next _))
  case rdResult =>
    exact answers_ite (answers_readWritten fun _ => answers_answerRead _ _) (answers_answerRead _ _)
  case service =>
    refine answers_ite (answers_readWritten fun v => ?_) (answers_next _)
    refine answers_ite (answers_readWritten fun p => ?_) (answers_acceptEdge v s)
    exact answers_ite (answers_acceptEdge v s) (answers_next _)

/-! ### Delivering a word, and a step -/

theorem whileScriptRuns_of_good {s : State} (h : s.Good) (k : Result) : whileScriptRuns s k = k := by
  simp [whileScriptRuns, whileNoFault_of_none h.noFault, h.notRefused]

theorem whileScriptRuns_of_refused {s : State} (hf : s.fault = none) (hr : s.refused = true) (k : Result) :
    whileScriptRuns s k = .refused .scriptRefused := by
  simp [whileScriptRuns, whileNoFault_of_none hf, hr]

theorem deliver_transaction {w : Word} {i : Instr} {s : State} (h : s.Good) (hd : decode w = .transaction i) :
    deliver w s = exec i s := by
  rw [deliver, whileScriptRuns_of_good h, hd]

theorem deliver_refuse {w : Word} {r : DecodeRefusal} {s : State} (h : s.Good) (hd : decode w = .refuse r) :
    deliver w s = .next s.setRefused := by
  rw [deliver, whileScriptRuns_of_good h, hd, refuseWord]

theorem good_of_deliver_next {w : Word} {s t : State} (h : deliver w s = .next t) : s.Good :=
  have ⟨hf, hr, _⟩ := deliver_next.1 h
  ⟨hf, hr⟩

/-- A word is applied exactly in a good state (R14, R28, R29). -/
theorem answers_deliver_iff {w : Word} {s : State} : Answers (deliver w s) ↔ s.Good := by
  refine ⟨fun ⟨_, h⟩ => good_of_deliver_next h, fun h => ?_⟩
  cases hd : decode w with
  | transaction i => exact deliver_transaction h hd ▸ answers_exec i h.noFault
  | refuse r => exact deliver_refuse h hd ▸ answers_next _

theorem State.Good.setScript {s : State} (h : s.Good) (ws : List Word) : (s.setScript ws).Good :=
  ⟨h.noFault, h.notRefused⟩

theorem step_nil {s : State} (h : s.script = []) : step s = deliverNothing s := by
  rw [step, h]

theorem step_cons {w : Word} {ws : List Word} {s : State} (h : s.script = w :: ws) :
    step s = deliver w (s.setScript ws) := by
  rw [step, h]

theorem step_of_refused {s : State} (hf : s.fault = none) (hr : s.refused = true) :
    step s = .refused .scriptRefused := by
  cases hs : s.script with
  | nil => exact step_nil hs ▸ whileScriptRuns_of_refused hf hr _
  | cons w ws => exact step_cons hs ▸ whileScriptRuns_of_refused (s := s.setScript ws) hf hr _

/-- Settles O56: each clause is the rule for a step with that script, then the rule for the word it delivers. -/
theorem stepRunsTheDecodedTransaction : Obligations.StepRunsTheDecodedTransaction := by
  intro s hf
  refine ⟨fun w ws i hr hs _ hd => ?_, fun w ws r hr hs hd => ?_, step_of_refused hf, fun hr hs => ?_⟩
  · exact (step_cons hs).trans (deliver_transaction (State.Good.setScript ⟨hf, hr⟩ ws) hd)
  · exact (step_cons hs).trans (deliver_refuse (State.Good.setScript ⟨hf, hr⟩ ws) hd)
  · exact (step_nil hs).trans (whileScriptRuns_of_good ⟨hf, hr⟩ _)

/-! ### What every transaction and every word leaves alone -/

theorem Effect.cfg_eq {i : Instr} {s t : State} (h : Effect i s t) : t.cfg = s.cfg := by
  cases h <;> simp

theorem Effect.script_eq {i : Instr} {s t : State} (h : Effect i s t) : t.script = s.script := by
  cases h <;> simp

/-- No transaction writes a parameter or the script, and a refused word only sets REFUSED (log entries 1 and 7). -/
theorem deliver_keeps_cfg_script {w : Word} {s t : State} (h : deliver w s = .next t) :
    t.cfg = s.cfg ∧ t.script = s.script := by
  obtain ⟨-, -, ⟨i, -, he⟩ | ⟨r, -, rfl⟩⟩ := deliver_next.1 h
  · obtain ⟨-, effect⟩ := exec_next_effect he
    exact ⟨effect.cfg_eq, effect.script_eq⟩
  · exact ⟨rfl, rfl⟩

theorem deliverNothing_next {s t : State} (h : deliverNothing s = .next t) : s = t := by
  obtain ⟨-, -, ht⟩ := whileScriptRuns_next.1 h
  simpa using ht

/-- A step keeps the parameters (R6 to R9) and takes one word of the script. -/
theorem step_keeps_cfg_takes_word {s t : State} (h : step s = .next t) :
    t.cfg = s.cfg ∧ t.script = s.script.tail := by
  cases hs : s.script with
  | nil =>
    obtain rfl := deliverNothing_next (step_nil hs ▸ h)
    exact ⟨rfl, hs⟩
  | cons w ws => exact deliver_keeps_cfg_script (step_cons hs ▸ h)

/-! ### The routing of IRQ and the script are read by no transaction

Changing them before a transaction, or before a word is delivered, is the same as changing them after it. -/

/-- The state with the routing of IRQ (R147) and the script (log entry 7) changed, and nothing else. -/
def State.mapUnread (g : IrqRouting → IrqRouting) (f : List Word → List Word) (s : State) : State :=
  { s with cfg := { s.cfg with irqRouting := g s.cfg.irqRouting }, script := f s.script }

/-- The outcome with its next state, if it is one, changed. -/
def mapNext (f : State → State) : Result → Result
  | .next s => .next (f s)
  | .fault r => .fault r
  | .refused r => .refused r

section
variable {g : IrqRouting → IrqRouting} {f : List Word → List Word}

theorem ite_mapNext {c : Prop} [Decidable c] {h : State → State} {k l k' l' : Result} (hk : k' = mapNext h k)
    (hl : l' = mapNext h l) : (if c then k' else l') = mapNext h (if c then k else l) := by
  rw [hk, hl, apply_ite (mapNext h)]

theorem whileNoFault_mapUnread {s : State} {k k' : Result} (hk : k' = mapNext (State.mapUnread g f) k) :
    whileNoFault (s.mapUnread g f) k' = mapNext (State.mapUnread g f) (whileNoFault s k) := by
  cases hf : s.fault with
  | none => rwa [whileNoFault_of_none hf, whileNoFault_of_none (s := s.mapUnread g f) hf]
  | some r => rw [whileNoFault_of_some hf, whileNoFault_of_some (s := s.mapUnread g f) hf, mapNext]

theorem readWritten_mapUnread {α : Type} {o : Option α} {i : Instr} {s : State} {k k' : α → Result}
    (hk : ∀ v, k' v = mapNext (State.mapUnread g f) (k v)) :
    readWritten o i (s.mapUnread g f) k' = mapNext (State.mapUnread g f) (readWritten o i s k) := by
  cases o with
  | none => rfl
  | some v => exact hk v

theorem rejectOffset_mapUnread (off : BitVec 8) (i : Instr) (s : State) :
    rejectOffset off i (s.mapUnread g f) = mapNext (State.mapUnread g f) (rejectOffset off i s) :=
  ite_mapNext rfl rfl

theorem State.latchWidth_mapUnread (s : State) (w : Nat) :
    (s.mapUnread g f).latchWidth w = (s.latchWidth w).mapUnread g f := by
  have hready : (s.mapUnread g f).ready = s.ready := rfl
  rw [State.latchWidth, State.latchWidth, hready]
  cases s.ready <;> rfl

theorem fallingBranch_mapUnread (v : Nat) (s : State) :
    fallingBranch v (s.mapUnread g f) = mapNext (State.mapUnread g f) (fallingBranch v s) :=
  readWritten_mapUnread fun r =>
    congrArg (fun u : State => Host.Outcome.next (u.setPhase .waitingForRising))
      ((s.setPending false).latchWidth_mapUnread (computeWidth r v s.cfg.M))

theorem acceptEdge_mapUnread (v : Nat) (s : State) :
    acceptEdge v (s.mapUnread g f) = mapNext (State.mapUnread g f) (acceptEdge v s) := by
  have hphase : (s.mapUnread g f).phase = s.phase := rfl
  rw [acceptEdge, acceptEdge, hphase]
  cases s.phase with
  | waitingForRising => rfl
  | waitingForFalling => exact fallingBranch_mapUnread v s

/-- R147: a transaction does the same whatever the routing of IRQ, and whatever words are still to come. -/
theorem exec_mapUnread (i : Instr) (s : State) :
    exec i (s.mapUnread g f) = mapNext (State.mapUnread g f) (exec i s) := by
  cases i <;> refine whileNoFault_mapUnread ?_
  case reset | tick | cntClear | rdStatus | rdCtrl | wrStatus | wrResult => rfl
  case rdOther | wrOther => exact rejectOffset_mapUnread _ _ _
  case capture | wrCtrl => exact ite_mapNext rfl (ite_mapNext rfl rfl)
  case rdResult => exact ite_mapNext (readWritten_mapUnread fun _ => rfl) rfl
  case service =>
    refine ite_mapNext (readWritten_mapUnread fun v => ?_) rfl
    refine ite_mapNext (readWritten_mapUnread fun p => ?_) (acceptEdge_mapUnread v s)
    exact ite_mapNext (acceptEdge_mapUnread v s) rfl

theorem whileScriptRuns_mapUnread {s : State} {k k' : Result} (hk : k' = mapNext (State.mapUnread g f) k) :
    whileScriptRuns (s.mapUnread g f) k' = mapNext (State.mapUnread g f) (whileScriptRuns s k) :=
  whileNoFault_mapUnread (ite_mapNext rfl hk)

theorem deliver_mapUnread (w : Word) (s : State) :
    deliver w (s.mapUnread g f) = mapNext (State.mapUnread g f) (deliver w s) := by
  refine whileScriptRuns_mapUnread ?_
  cases decode w with
  | transaction i => exact exec_mapUnread i s
  | refuse r => rfl

/-- A step reads the script, but not the routing of IRQ. -/
theorem step_mapRouting (s : State) :
    step (s.mapUnread g id) = mapNext (State.mapUnread g id) (step s) := by
  cases hs : s.script with
  | nil =>
    rw [step_nil hs, step_nil (s := s.mapUnread g id) hs]
    exact whileScriptRuns_mapUnread rfl
  | cons w ws =>
    rw [step_cons hs, step_cons (s := s.mapUnread g id) hs]
    exact deliver_mapUnread (f := id) w (s.setScript ws)

end

/-- Settles O55: a step commutes with a change of the routing, and keeps the parameters that the new routing joins. -/
theorem stepsKeepTheParametersAndTakeOneWord : Obligations.StepsKeepTheParametersAndTakeOneWord := by
  intro s t h
  obtain ⟨hcfg, hscript⟩ := step_keeps_cfg_takes_word h
  refine ⟨hcfg, hscript, fun routing => ⟨?_, rfl⟩⟩
  have rerouted := step_mapRouting (g := fun _ => routing) s
  rw [h, mapNext, State.mapUnread, State.mapUnread, hcfg] at rerouted
  exact rerouted

/-! ### Scripts -/

theorem deliver_setScript {w : Word} {s t : State} (h : deliver w s = .next t) (ws : List Word) :
    deliver w (s.setScript ws) = .next (t.setScript ws) := by
  have replaced := deliver_mapUnread (g := id) (f := fun _ => ws) w s
  rwa [h] at replaced

theorem runWords_cons_of_next {w : Word} {ws : List Word} {s t : State} (h : deliver w s = .next t) :
    runWords (w :: ws) s = runWords ws t := by
  rw [runWords, h]

/-- After a fault or a refusal "the remaining words are not applied" (R14). -/
theorem runWords_of_not_good {s : State} (h : ¬ s.Good) (ws : List Word) : runWords ws s = s := by
  cases ws with
  | nil => rfl
  | cons w ws =>
    cases hd : deliver w s with
    | next t => exact absurd (good_of_deliver_next hd) h
    | fault r => rw [runWords, hd]
    | refused r => rw [runWords, hd]

theorem good_of_runWords_good {ws : List Word} {s : State} (h : (runWords ws s).Good) : s.Good := by
  by_contra hs
  exact hs (runWords_of_not_good hs ws ▸ h)

/-- Words after other words start in the state those leave. -/
theorem runWords_append (ws vs : List Word) (s : State) : runWords (ws ++ vs) s = runWords vs (runWords ws s) := by
  induction ws generalizing s with
  | nil => rfl
  | cons w ws ih =>
    by_cases hs : s.Good
    · obtain ⟨t, ht⟩ := answers_deliver_iff (w := w).2 hs
      rw [List.cons_append, runWords_cons_of_next ht, runWords_cons_of_next ht, ih]
    · simp only [runWords_of_not_good hs]

/-- Settles O58: the words `vs` start in a state in which no word is applied. -/
theorem noWordIsAppliedAfterTheEnd : Obligations.NoWordIsAppliedAfterTheEnd := by
  intro ws vs s h
  have stays : runWords (ws ++ vs) s = runWords ws s := by
    rw [runWords_append, runWords_of_not_good h]
  exact ⟨stays, by simp only [observe, stays]⟩

theorem State.setScript_of_script_eq {s : State} {ws : List Word} (h : s.script = ws) : s.setScript ws = s := by
  subst h
  rfl

theorem core_run_succ_of_step {s t : State} (h : step s = .next t) (k : Nat) :
    Host.Core.run Sys2Proof.core (k + 1) s = Host.Core.run Sys2Proof.core k t := by
  have hcore : Sys2Proof.core.step s = .next t := h
  simp only [Host.Core.run, hcore]

/-- Settles O57, by induction on the script: a step delivers the first word as `runWords` does, whatever words wait. -/
theorem stepsApplyTheScriptInOrder : Obligations.StepsApplyTheScriptInOrder := by
  intro ws
  induction ws with
  | nil =>
    intro s hs _
    exact congrArg Host.Outcome.next (State.setScript_of_script_eq hs)
  | cons w ws ih =>
    intro s hs hgood
    obtain ⟨t, ht⟩ := answers_deliver_iff (w := w).2 (good_of_runWords_good hgood)
    obtain ⟨-, hscript⟩ := deliver_keeps_cfg_script ht
    have first : step { s with script := w :: ws } = .next { t with script := ws } := deliver_setScript ht ws
    rw [runWords_cons_of_next ht] at hgood ⊢
    calc Host.Core.run Sys2Proof.core (ws.length + 1) { s with script := w :: ws }
      _ = Host.Core.run Sys2Proof.core ws.length { t with script := ws } := core_run_succ_of_step first _
      _ = .next (runWords ws t) := ih t (hscript.trans hs) hgood

end Sys2Proof.Machine
end

section
/-! PROOFS. The state and its invariant (10_state.md): O34, O41, O52, O53, O54. -/

namespace Sys2Proof.Machine

variable {s t : State} {i : Instr}

/-! ### What each write of the state needs to keep the invariant

`{ h with … }` names the clauses of R36 that a write touches; it leaves the others as they are. -/

namespace State.Inv

theorem setFault (h : s.Inv) (r : FaultRecord) : (s.setFault r).Inv := { h with }

theorem setRefused (h : s.Inv) : s.setRefused.Inv := { h with }

theorem setScript (h : s.Inv) (ws : List Word) : (s.setScript ws).Inv := { h with }

theorem logResponse (h : s.Inv) (resp : Word) : (s.logResponse resp).Inv := { h with }

theorem countDraw (h : s.Inv) : s.countDraw.Inv := { h with }

theorem setCnt (h : s.Inv) {n : Nat} (below : n < s.cfg.M) : (s.setCnt n).Inv := { h with cntBelow := below }

theorem setPhase (h : s.Inv) {p : Phase} (held : p = .waitingForFalling → s.rise ≠ none) : (s.setPhase p).Inv :=
  { h with riseHeld := held }

theorem setRise_some (h : s.Inv) {v : Nat} (below : v < s.cfg.M) : (s.setRise (some v)).Inv :=
  { h with
    riseHeld := fun _ => Option.some_ne_none v
    riseBelow := (tickBelow_some _ v).2 below }

theorem setWidth_some (h : s.Inv) {v : Nat} (below : v < s.cfg.M) : (s.setWidth (some v)).Inv :=
  { h with
    widthHeld := fun _ => Option.some_ne_none v
    widthBelow := (tickBelow_some _ v).2 below }

theorem setReady (h : s.Inv) {b : Bool} (held : b = true → s.width ≠ none) : (s.setReady b).Inv :=
  { h with widthHeld := held }

theorem setCapture_some (h : s.Inv) {v : Nat} (below : v < s.cfg.M) (p : Polarity) :
    (s.setCapture (some v) (some p)).Inv :=
  { h with
    captValHeld := fun _ => Option.some_ne_none v
    captPolHeld := fun _ => Option.some_ne_none p
    captValBelow := (tickBelow_some _ v).2 below }

theorem setPending (h : s.Inv) {b : Bool} (val : b = true → s.captVal ≠ none) (pol : b = true → s.captPol ≠ none) :
    (s.setPending b).Inv :=
  { h with captValHeld := val, captPolHeld := pol }

theorem setPhase_rising (h : s.Inv) : (s.setPhase .waitingForRising).Inv := h.setPhase nofun

theorem setReady_false (h : s.Inv) : (s.setReady false).Inv := h.setReady nofun

theorem setPending_false (h : s.Inv) : (s.setPending false).Inv := h.setPending nofun nofun

theorem abort (h : s.Inv) : s.abort.Inv := h.setPhase_rising.setReady_false.setPending_false

/-- RESET clears the flags before the registers that they vouch for (R170). -/
theorem resetBlock (h : s.Inv) : s.resetBlock.Inv :=
  { h.abort with
    riseHeld := nofun
    widthHeld := nofun
    captValHeld := nofun
    captPolHeld := nofun
    riseBelow := tickBelow_none _
    widthBelow := tickBelow_none _
    captValBelow := tickBelow_none _ }

theorem latchWidth (h : s.Inv) {w : Nat} (below : w < s.cfg.M) : (s.latchWidth w).Inv := by
  unfold State.latchWidth
  cases s.ready with
  | true => exact h
  | false => exact (h.setWidth_some below).setReady fun _ => Option.some_ne_none w

theorem captVal_lt (h : s.Inv) {v : Nat} (val : s.captVal = some v) : v < s.cfg.M := h.captValBelow v val

theorem rise_lt (h : s.Inv) {v : Nat} (val : s.rise = some v) : v < s.cfg.M := h.riseBelow v val

end State.Inv

/-- A width of two tick values is a tick value (R86, R87). -/
theorem computeWidth_lt {r f M : Nat} (hr : r < M) (hf : f < M) : computeWidth r f M < M := by
  unfold computeWidth
  split <;> omega

/-! ### The start of a run, and every step -/

theorem State.start_inv {c : Config} {cnt : Nat} (hc : c.WF) (hcnt : cnt < c.M) : (State.start c cnt).Inv where
  params := hc
  cntBelow := hcnt
  riseHeld := nofun
  widthHeld := nofun
  captValHeld := nofun
  captPolHeld := nofun
  riseBelow := tickBelow_none _
  widthBelow := tickBelow_none _
  captValBelow := tickBelow_none _

/-- Settles O52: `State.reset` is the start of a run whose counter is a remainder mod `M`. -/
theorem invariantHoldsAtTheStart : Obligations.InvariantHoldsAtTheStart := by
  have reference : Config.reference.WF := ⟨by decide, by decide, by decide, by decide⟩
  exact ⟨State.start_inv reference (Nat.mod_lt _ reference.oneLeM), fun c cnt hc hcnt => State.start_inv hc hcnt⟩

/-- Every effect of a transaction keeps the invariant (R36). -/
theorem Effect.inv (effect : Effect i s t) (h : s.Inv) : t.Inv := by
  cases effect with
  | raise => exact h.setFault _
  | reset => exact h.resetBlock
  | tick => exact h.setCnt (Nat.mod_lt _ h.params.oneLeM)
  | capture _ pol tick below =>
    exact (h.setCapture_some below pol).setPending (fun _ => Option.some_ne_none _) fun _ => Option.some_ne_none _
  | serviceIdle | wrCtrlZero => exact h
  | serviceIgnored => exact h.setPending_false
  | serviceRising _ v accepted val phase =>
    exact (h.setPending_false.setRise_some (h.captVal_lt val)).setPhase fun _ => Option.some_ne_none v
  | serviceFalling _ v r accepted val phase rise =>
    have width : computeWidth r v s.cfg.M < s.cfg.M := computeWidth_lt (h.rise_lt rise) (h.captVal_lt val)
    exact (h.setPending_false.latchWidth width).setPhase_rising
  | rdStatus | rdCtrl => exact h.logResponse _
  | rdResult => exact h.setReady_false.logResponse _
  | rdResultEmpty => exact h.countDraw.logResponse _
  | abort => exact h.abort
  | cntClear => exact h.setCnt h.params.oneLeM

theorem exec_inv (h : s.Inv) (he : exec i s = .next t) : t.Inv := (exec_next_effect he).2.inv h

theorem deliver_inv {w : Word} (h : s.Inv) (hd : deliver w s = .next t) : t.Inv := by
  obtain ⟨-, -, ⟨i, -, he⟩ | ⟨r, -, rfl⟩⟩ := deliver_next.1 hd
  · exact exec_inv h he
  · exact h.setRefused

/-- Settles O53: a step delivers the script's next word or changes nothing. -/
theorem everyStepKeepsTheInvariant : Obligations.EveryStepKeepsTheInvariant := by
  intro s t h hstep
  cases hs : s.script with
  | nil =>
    obtain rfl := deliverNothing_next (step_nil hs ▸ hstep)
    exact h
  | cons w ws => exact deliver_inv (h.setScript ws) (step_cons hs ▸ hstep)

/-! ### FAULT -/

/-- A transaction leaves FAULT as it is, or raises a fault and does nothing else (R141). -/
theorem Effect.fault_eq_or_raises (effect : Effect i s t) :
    t.fault = s.fault ∨ ∃ code, Raises i s code ∧ t = s.setFault { code := code, word := encode i } := by
  cases effect with
  | raise _ _ code cause => exact .inr ⟨code, cause, rfl⟩
  | _ => exact .inl (by simp)

/-- In a state of the invariant no rule reads a *none* value (R36). -/
theorem State.Inv.not_meetsNone (h : s.Inv) : ¬ MeetsNone i s := by
  rintro (⟨-, pending, val | pol | ⟨falling, rise⟩⟩ | ⟨-, ready, width⟩)
  · exact h.captValHeld pending val
  · exact h.captPolHeld pending pol
  · exact h.riseHeld falling rise
  · exact h.widthHeld ready width

/-- UNWRITTEN_READ is raised for a *none* value alone (R140 code 7). -/
theorem Raises.meetsNone (h : Raises i s .unwrittenRead) : MeetsNone i s := by
  cases h with
  | noneMet _ _ met => exact met

/-- FAULT does not hold UNWRITTEN_READ. -/
def NoUnwrittenRead (s : State) : Prop := ∀ r, s.fault = some r → r.code ≠ .unwrittenRead

theorem noUnwrittenRead_of_noFault (hf : s.fault = none) : NoUnwrittenRead s :=
  fun _ hr => nomatch hf.symm.trans hr

theorem exec_noUnwrittenRead (h : s.Inv) (he : exec i s = .next t) : NoUnwrittenRead t := by
  obtain ⟨hf, effect⟩ := exec_next_effect he
  obtain same | ⟨code, cause, rfl⟩ := effect.fault_eq_or_raises
  · exact noUnwrittenRead_of_noFault (same.trans hf)
  · rintro _ ⟨⟩ rfl
    exact h.not_meetsNone cause.meetsNone

theorem deliver_noUnwrittenRead {w : Word} (h : s.Inv) (hd : deliver w s = .next t) : NoUnwrittenRead t := by
  obtain ⟨hf, -, ⟨i, -, he⟩ | ⟨r, -, rfl⟩⟩ := deliver_next.1 hd
  · exact exec_noUnwrittenRead h he
  · exact noUnwrittenRead_of_noFault hf

/-- What every delivered word keeps holds at the end of every script. -/
theorem runWords_keeps {P : State → Prop} (kept : ∀ w s t, P s → deliver w s = .next t → P t) (ws : List Word)
    (h : P s) : P (runWords ws s) := by
  induction ws generalizing s with
  | nil => exact h
  | cons w ws ih =>
    by_cases hs : s.Good
    · obtain ⟨t, ht⟩ := answers_deliver_iff (w := w).2 hs
      exact runWords_cons_of_next ht ▸ ih (kept w s t h ht)
    · exact (runWords_of_not_good hs (w :: ws)).symm ▸ h

/-- Settles O54: the invariant is carried along the script with the claim, since it is what keeps UNWRITTEN_READ out. -/
theorem unwrittenReadIsUnreachable : Obligations.UnwrittenReadIsUnreachable := by
  intro c cnt ws hc hcnt
  have kept : ∀ w s t, s.Inv ∧ NoUnwrittenRead s → deliver w s = .next t → t.Inv ∧ NoUnwrittenRead t :=
    fun _ _ _ ⟨inv, _⟩ hd => ⟨deliver_inv inv hd, deliver_noUnwrittenRead inv hd⟩
  have start : (State.start c cnt).Inv ∧ NoUnwrittenRead (State.start c cnt) :=
    ⟨State.start_inv hc hcnt, noUnwrittenRead_of_noFault rfl⟩
  exact (runWords_keeps kept ws start).2

/-- Every transaction stands under the guard (R28, log entry 5). -/
theorem exec_of_faulted {r : FaultRecord} (hr : s.fault = some r) (i : Instr) :
    exec i s = .fault (.halted r.code r.word) := by
  cases i <;> exact whileNoFault_of_some hr _

theorem step_of_faulted {r : FaultRecord} (hr : s.fault = some r) : step s = .fault (.halted r.code r.word) := by
  cases hs : s.script with
  | nil => exact step_nil hs ▸ whileNoFault_of_some hr _
  | cons w ws => exact step_cons hs ▸ whileNoFault_of_some (s := s.setScript ws) hr _

theorem agentEnabled_of_faulted {r : FaultRecord} (hr : s.fault = some r) (a : Agent) : agentEnabled a s = false := by
  simp [agentEnabled, hr]

theorem not_good_of_faulted {r : FaultRecord} (hr : s.fault = some r) : ¬ s.Good :=
  fun good => nomatch hr.symm.trans good.noFault

/-- Settles O41: each clause is the guard's own. -/
theorem noStepOnceFaultIsSet : Obligations.NoStepOnceFaultIsSet := by
  refine ⟨fun _ _ => rfl, fun s r hr => ?_⟩
  exact ⟨agentEnabled_of_faulted hr, exec_of_faulted hr, step_of_faulted hr, not_good_of_faulted hr,
    runWords_of_not_good (not_good_of_faulted hr)⟩

/-! ### CNT -/

/-- TICK and CNT_CLEAR alone write CNT (R31). -/
theorem Effect.cnt_eq (effect : Effect i s t) (notTick : i ≠ .tick) (notClear : i ≠ .cntClear) : t.cnt = s.cnt := by
  cases effect with
  | tick => exact absurd rfl notTick
  | cntClear => exact absurd rfl notClear
  | _ => simp

theorem exec_tick_cnt (he : exec .tick s = .next t) : t.cnt = (s.cnt + 1) % s.cfg.M := by
  obtain ⟨-, next⟩ := whileNoFault_next.1 he
  cases next
  rfl

/-- One transaction that is no CNT_CLEAR moves CNT by its TICK, if it is one, mod M (R31, R120). -/
theorem exec_cnt (hcnt : s.cnt < s.cfg.M) (notClear : i ≠ .cntClear) (he : exec i s = .next t) :
    t.cnt = (s.cnt + tickCount [i]) % s.cfg.M := by
  by_cases tick : i = .tick
  · subst tick
    exact exec_tick_cnt he
  · have noTick : tickCount [i] = 0 := by simp [tickCount, tick]
    rw [noTick, Nat.add_zero, Nat.mod_eq_of_lt hcnt]
    exact (exec_next_effect he).2.cnt_eq tick notClear

theorem tickCount_cons (i : Instr) (is : List Instr) : tickCount (i :: is) = tickCount [i] + tickCount is :=
  List.count_append (l₁ := [i])

/-- Settles O34, by induction on the run: each transaction moves the counter by its own TICKs and keeps M. -/
theorem counterMovesByTheTicksOfTheRun : Obligations.CounterMovesByTheTicksOfTheRun := by
  intro s t is hcnt hclear hrun
  induction is generalizing s with
  | nil =>
    cases hrun
    exact (Nat.mod_eq_of_lt hcnt).symm
  | cons i is ih =>
    obtain ⟨u, he, hrest⟩ := runAll_cons_next.1 hrun
    obtain ⟨notClear, clearRest⟩ := List.ne_and_not_mem_of_not_mem_cons hclear
    have cfg : u.cfg = s.cfg := (exec_next_effect he).2.cfg_eq
    have first : u.cnt = (s.cnt + tickCount [i]) % s.cfg.M := exec_cnt hcnt notClear.symm he
    have below : u.cnt < u.cfg.M := by
      rw [first, cfg]
      exact Nat.mod_lt _ (Nat.zero_lt_of_lt hcnt)
    calc t.cnt
      _ = (u.cnt + tickCount is) % s.cfg.M := cfg ▸ ih u below clearRest hrest
      _ = (s.cnt + tickCount [i] + tickCount is) % s.cfg.M := by rw [first, Nat.mod_add_mod]
      _ = (s.cnt + tickCount (i :: is)) % s.cfg.M := by rw [tickCount_cons i is, Nat.add_assoc]

end Sys2Proof.Machine
end

section
/-! PROOFS. The register window (20_memory.md): O25, O29. -/

namespace Sys2Proof.Machine

variable {s t : State} {i : Instr}

/-! ### Offsets with no register -/

theorem misaligned_iff (off : BitVec 8) : misaligned off = true ↔ off.toNat % 4 ≠ 0 := by
  simp [misaligned, offOperand]

theorem rejectOffset_of_misaligned {off : BitVec 8} (h : off.toNat % 4 ≠ 0) (i : Instr) (s : State) :
    rejectOffset off i s = raiseFault .busMisaligned i s :=
  if_pos ((misaligned_iff off).2 h)

theorem rejectOffset_of_aligned {off : BitVec 8} (h : off.toNat % 4 = 0) (i : Instr) (s : State) :
    rejectOffset off i s = raiseFault .busReservedOffset i s :=
  if_neg fun odd => (misaligned_iff off).1 odd h

theorem exec_rdOther (hf : s.fault = none) (off : BitVec 8) :
    exec (.rdOther off) s = rejectOffset off (.rdOther off) s :=
  whileNoFault_of_none hf _

theorem exec_wrOther (hf : s.fault = none) (off : BitVec 8) (data : BitVec 16) :
    exec (.wrOther off data) s = rejectOffset off (.wrOther off data) s :=
  whileNoFault_of_none hf _

/-- The aligned offsets of the window beyond its three registers are 0x0C to 0xFC (R40, R106). -/
theorem aligned_offset_range {off : BitVec 8} (other : registerOffsets.contains off = false)
    (aligned : off.toNat % 4 = 0) : 12 ≤ off.toNat ∧ off.toNat ≤ 252 := by
  have noRegister : off.toNat ≠ 0 ∧ off.toNat ≠ 4 ∧ off.toNat ≠ 8 := by
    simpa [registerOffsets, ← BitVec.toNat_inj] using other
  have := off.isLt
  omega

/-- Settles O25: each access is `rejectOffset`, which raises its one fault and does nothing else. -/
theorem otherOffsetsFault : Obligations.OtherOffsetsFault := by
  intro s off data hf other
  rw [exec_rdOther hf, exec_wrOther hf]
  refine ⟨fun odd => ?_, fun aligned => ?_⟩
  · simp only [rejectOffset_of_misaligned odd]
    exact ⟨rfl, rfl⟩
  · obtain ⟨low, high⟩ := aligned_offset_range other aligned
    simp only [rejectOffset_of_aligned aligned]
    exact ⟨low, high, rfl, rfl⟩

/-! ### The word that delivers a result -/

theorem tickBits_of_lt {c : Config} {v : Nat} (h : v < 2 ^ c.W) : tickBits c v = BitVec.ofNat 32 v := by
  rw [tickBits, Nat.mod_eq_of_lt h]

/-- Every tick value fits the `W` bits of a register (R7, R36 (d)). -/
theorem tick_fits_register {c : Config} (h : c.WF) {v : Nat} (below : v < c.M) : v < 2 ^ c.W :=
  below.trans_le h.fits

theorem resultWord_valid {c : Config} (h : c.WF) {w : Nat} (below : w < c.M) :
    resultWord c true w = 0x80000000#32 ||| BitVec.ofNat 32 w := by
  rw [resultWord, tickBits_of_lt (tick_fits_register h below)]
  rfl

theorem exec_rdResult_of_ready (hf : s.fault = none) (ready : s.ready = true) {w : Nat} (width : s.width = some w) :
    exec .rdResult s = .next ((s.setReady false).logResponse (resultWord s.cfg true w)) := by
  have guarded : exec .rdResult s = _ := whileNoFault_of_none hf _
  rw [guarded, if_pos ready, width, readWritten_some, answerRead]

/-! ### An unread result stays -/

/-- What every transaction of a run keeps holds at the end of the run. -/
theorem runAll_keeps {P : State → Prop} {is : List Instr}
    (kept : ∀ i ∈ is, ∀ s t, P s → exec i s = .next t → P t) (h : P s) (hrun : runAll is s = .next t) : P t := by
  induction is generalizing s with
  | nil =>
    cases hrun
    exact h
  | cons i is ih =>
    obtain ⟨u, he, hrest⟩ := runAll_cons_next.1 hrun
    obtain ⟨first, rest⟩ := List.forall_mem_cons.1 kept
    exact ih rest (first s u h he) hrest

theorem runAll_inv {is : List Instr} (h : s.Inv) (hrun : runAll is s = .next t) : t.Inv :=
  runAll_keeps (fun _ _ _ _ => exec_inv) h hrun

/-- The width `w` is latched and not yet read. -/
structure HoldsResult (w : Nat) (s : State) : Prop where
  ready : s.ready = true
  width : s.width = some w

/-- A RESULT read, RESET and ABORT alone take an unread result away; a SERVICE drops its own width instead (R49, R85). -/
theorem Effect.holdsResult {w : Nat} (effect : Effect i s t) (noRead : i ≠ .rdResult) (noReset : i ≠ .reset)
    (noAbort : isAbort i = false) (h : HoldsResult w s) : HoldsResult w t := by
  cases effect with
  | rdResult | rdResultEmpty => exact absurd rfl noRead
  | reset => exact absurd rfl noReset
  | abort _ _ isAbort => exact absurd (noAbort.symm.trans isAbort) Bool.false_ne_true
  | serviceFalling => exact ⟨by simp, by simp [h.ready, h.width]⟩
  | _ => exact ⟨h.ready, h.width⟩

/-- Settles O29: the run keeps the result, and the invariant, which bounds the width that the read then answers. -/
theorem pollThenReadIsRaceFree : Obligations.PollThenReadIsRaceFree := by
  intro s t is w inv ready width only hrun hf
  have held : HoldsResult w t := by
    refine runAll_keeps (fun i hi s t h he => ?_) ⟨ready, width⟩ hrun
    obtain ⟨noRead, noReset, noAbort⟩ := only i hi
    exact (exec_next_effect he).2.holdsResult noRead noReset noAbort h
  have inv' : t.Inv := runAll_inv inv hrun
  have below : w < t.cfg.M := inv'.widthBelow w held.width
  refine ⟨_, exec_rdResult_of_ready hf held.ready held.width, ?_, rfl⟩
  rw [State.logResponse_log, State.setReady_log, resultWord_valid inv'.params below]

end Sys2Proof.Machine
end

section
/-! PROOFS. The transaction word (30_encoding.md): O1 to O7.

Everything about the round trip rests on one fact about a row of the opcode map: what it builds from a word is encoded
as the row's match bits with the word's own bits outside the mask (`encode_build`). -/

namespace Sys2Proof.Machine

variable {w : Word} {i : Instr}

/-! ### The fields of a word -/

/-- A field of a word, put back in its place, is the word with every other bit cleared. -/
theorem field_in_place (w : Word) (lo len : Nat) :
    (w.extractLsb' lo len).setWidth 32 <<< lo = w &&& ((BitVec.allOnes len).setWidth 32 <<< lo) := by
  ext n hn
  simp only [BitVec.getElem_shiftLeft, BitVec.getElem_and, BitVec.getElem_setWidth, BitVec.getLsbD_extractLsb',
    BitVec.getLsbD_allOnes]
  by_cases low : n < lo
  · simp [low]
  · rw [Nat.add_sub_cancel' (Nat.le_of_not_lt low), BitVec.getLsbD_eq_getElem hn]
    simp [low, Bool.and_comm]

theorem setWidth_tickField (w : Word) : (tickField w).setWidth 32 = w &&& 0x00FFFFFF#32 :=
  (BitVec.shiftLeft_zero _).symm.trans (field_in_place w 0 24)

theorem setWidth_offField (w : Word) : (offField w).setWidth 32 = w &&& 0x000000FF#32 :=
  (BitVec.shiftLeft_zero _).symm.trans (field_in_place w 0 8)

theorem dataBits_dataField (w : Word) : dataBits (dataField w) = w &&& 0x00FFFF00#32 :=
  field_in_place w 8 16

theorem kindField_in_place (w : Word) : (kindField w).setWidth 32 <<< 28 = w &&& 0xF0000000#32 :=
  field_in_place w 28 4

theorem extractLsb'_one (w : Word) (n : Nat) : w.extractLsb' n 1 = BitVec.ofBool (w.getLsbD n) := by
  ext j hj
  obtain rfl : j = 0 := by omega
  simp

theorem polBits_polField (w : Word) : polBits (polField w) = w &&& 0x08000000#32 := by
  refine Eq.trans ?_ (field_in_place w 27 1)
  rw [extractLsb'_one, polField]
  cases w.getLsbD 27 <;> rfl

theorem offField_and (v w : Word) : offField (v &&& w) = offField v &&& offField w :=
  BitVec.extractLsb'_and

theorem dataField_or (v w : Word) : dataField (v ||| w) = dataField v ||| dataField w :=
  BitVec.extractLsb'_or

@[simp] theorem dataField_dataBits (data : BitVec 16) : dataField (dataBits data) = data := by
  apply BitVec.eq_of_getLsbD_eq
  intro n hn
  have inWord : 8 + n < 32 := by omega
  simp [dataField, dataBits, hn, inWord]

@[simp] theorem dataField_setWidth_off (off : BitVec 8) : dataField (off.setWidth 32) = 0#16 := by
  apply BitVec.eq_of_getLsbD_eq
  intro n hn
  simp [dataField]

@[simp] theorem dataField_encode_wrCtrl (data : BitVec 16) : dataField (encode (.wrCtrl data)) = data := by
  rw [encode, dataField_or, dataField_dataBits]
  exact BitVec.zero_or

@[simp] theorem dataField_encode_wrStatus (data : BitVec 16) : dataField (encode (.wrStatus data)) = data := by
  rw [encode, dataField_or, dataField_dataBits]
  exact BitVec.zero_or

@[simp] theorem dataField_encode_wrResult (data : BitVec 16) : dataField (encode (.wrResult data)) = data := by
  rw [encode, dataField_or, dataField_dataBits]
  exact BitVec.zero_or

@[simp] theorem dataField_encode_wrOther (off : BitVec 8) (data : BitVec 16) :
    dataField (encode (.wrOther off data)) = data := by
  rw [encode, dataField_or, dataField_or, dataField_dataBits, dataField_setWidth_off, BitVec.or_zero]
  exact BitVec.zero_or

/-! ### The rows of the opcode map, counted from 0 -/

/-- The row that spells a transaction (R66). -/
def rowIndex : Instr → Fin 13
  | .reset => 0
  | .tick => 1
  | .capture _ _ => 2
  | .service => 3
  | .rdStatus => 4
  | .rdResult => 5
  | .rdCtrl => 6
  | .rdOther _ => 7
  | .wrCtrl _ => 8
  | .wrStatus _ => 9
  | .wrResult _ => 10
  | .wrOther _ _ => 11
  | .cntClear => 12

theorem build_encode (i : Instr) : opcodeRows[rowIndex i].build (encode i) = i := by
  cases i with
  | capture pol tick => exact congrArg₂ Instr.capture (polField_encode_capture _ _) (tickField_encode_capture _ _)
  | rdOther off => exact congrArg Instr.rdOther (offField_encode_rdOther _)
  | wrCtrl data => exact congrArg Instr.wrCtrl (dataField_encode_wrCtrl _)
  | wrStatus data => exact congrArg Instr.wrStatus (dataField_encode_wrStatus _)
  | wrResult data => exact congrArg Instr.wrResult (dataField_encode_wrResult _)
  | wrOther off data => exact congrArg₂ Instr.wrOther (offField_encode_wrOther _ _) (dataField_encode_wrOther _ _)
  | _ => rfl

/-- The operand fields of a row are exactly the bits outside its mask. -/
theorem encode_build (w : Word) (k : Fin 13) :
    encode (opcodeRows[k].build w) = opcodeRows[k].matchWord ||| (w &&& ~~~opcodeRows[k].mask) := by
  have fixed (m : Word) : m = m ||| (w &&& ~~~0xFFFFFFFF#32) := by simp
  match k with
  | 0 | 1 | 3 | 4 | 5 | 6 | 12 => exact fixed _
  | 2 =>
    change 0x30000000#32 ||| polBits (polField w) ||| (tickField w).setWidth 32 = _
    rw [polBits_polField, setWidth_tickField, BitVec.or_assoc, ← BitVec.and_or_distrib_left]
    rfl
  | 7 => exact congrArg (0x50000000#32 ||| ·) (setWidth_offField w)
  | 8 => exact congrArg (0x60000008#32 ||| ·) (dataBits_dataField w)
  | 9 => exact congrArg (0x60000000#32 ||| ·) (dataBits_dataField w)
  | 10 => exact congrArg (0x60000004#32 ||| ·) (dataBits_dataField w)
  | 11 =>
    change 0x60000000#32 ||| dataBits (dataField w) ||| (offField w).setWidth 32 = _
    rw [dataBits_dataField, setWidth_offField, BitVec.or_assoc, ← BitVec.and_or_distrib_left]
    rfl

theorem rowMatches_iff (r : OpcodeRow) : rowMatches w r = true ↔ w &&& r.mask = r.matchWord :=
  beq_iff_eq

theorem matchWord_and_mask :
    ∀ k : Fin 13, opcodeRows[k].matchWord &&& opcodeRows[k].mask = opcodeRows[k].matchWord := by
  decide

/-- A row takes a word exactly when the transaction it builds is spelled by that word. -/
theorem rowMatches_iff_encode_build (w : Word) (k : Fin 13) :
    rowMatches w opcodeRows[k] = true ↔ encode (opcodeRows[k].build w) = w := by
  rw [rowMatches_iff, encode_build]
  refine ⟨fun taken => ?_, fun spelled => ?_⟩
  · rw [← taken, ← BitVec.and_or_distrib_left, BitVec.or_not_self, BitVec.and_allOnes]
  · conv_lhs => rw [← spelled]
    rw [BitVec.and_or_distrib_right, matchWord_and_mask, BitVec.and_assoc, BitVec.and_comm (~~~_), BitVec.and_not_self]
    simp

theorem rowMatches_encode (i : Instr) : rowMatches (encode i) opcodeRows[rowIndex i] = true := by
  rw [rowMatches_iff_encode_build, build_encode]

/-! ### Rows 8 and 12 take the offsets that rows 5 to 7 and 9 to 11 leave (R67) -/

/-- Row `j` takes one offset of the row `k` of "any other offset". -/
abbrev Overlaps (j k : Fin 13) : Prop :=
  (k = 7 ∧ (j = 4 ∨ j = 5 ∨ j = 6)) ∨ (k = 11 ∧ (j = 8 ∨ j = 9 ∨ j = 10))

/-- Two rows that do not overlap disagree on a bit that both fix. -/
theorem overlaps_of_agree : ∀ j k : Fin 13, j < k →
    opcodeRows[j].matchWord &&& opcodeRows[k].mask = opcodeRows[k].matchWord &&& opcodeRows[j].mask → Overlaps j k := by
  decide

/-- Settles O4: a word that both rows take makes them agree on the bits that both fix. -/
theorem rowsOverlapOnlyAtTheOtherOffsets : Obligations.RowsOverlapOnlyAtTheOtherOffsets := by
  intro w j k hjk hj hk
  rw [rowMatches_iff] at hj hk
  by_contra disjoint
  exact and_ne_of_and_eq hj (fun agree => disjoint (overlaps_of_agree j k hjk agree)) hk

theorem overlaps_lt : ∀ j k : Fin 13, Overlaps j k → j < k := by
  decide

/-- The earlier of two overlapping rows fixes OFF besides what the later one fixes. -/
theorem overlaps_row : ∀ j k : Fin 13, Overlaps j k →
    opcodeRows[j].mask = opcodeRows[k].mask ||| 0x000000FF#32 ∧
    opcodeRows[j].matchWord = opcodeRows[k].matchWord ||| (offField opcodeRows[j].matchWord).setWidth 32 ∧
    offField opcodeRows[j].mask = BitVec.allOnes 8 := by
  decide

theorem rowMatches_iff_offField {j k : Fin 13} (h : Overlaps j k) (hk : rowMatches w opcodeRows[k] = true) :
    rowMatches w opcodeRows[j] = true ↔ offField w = offField opcodeRows[j].matchWord := by
  obtain ⟨mask, matchWord, offMask⟩ := overlaps_row j k h
  rw [rowMatches_iff] at hk ⊢
  refine ⟨fun taken => ?_, fun off => ?_⟩
  · rw [← taken, offField_and, offMask, BitVec.and_allOnes]
  · rw [matchWord, mask, BitVec.and_or_distrib_left, hk, ← setWidth_offField, off]

/-- The transactions a row builds are ill-formed only at the offsets of the rows before it. -/
theorem wellFormed_build_iff (w : Word) (k : Fin 13) : (opcodeRows[k].build w).wellFormed = true ↔
    ∀ j, Overlaps j k → offField w ≠ offField opcodeRows[j].matchWord := by
  match k with
  | 7 => simp [opcodeRows, Overlaps, Instr.wellFormed, registerOffsets, offField]
  | 11 => simp [opcodeRows, Overlaps, Instr.wellFormed, registerOffsets, offField, and_assoc, and_comm]
  | 0 | 1 | 2 | 3 | 4 | 5 | 6 | 8 | 9 | 10 | 12 => exact iff_of_true rfl (by simp [Overlaps])

/-- Of the rows that take a word, the first is the one that builds a well-formed transaction (R67). -/
theorem first_row_iff_wellFormed {k : Fin 13} (hk : rowMatches w opcodeRows[k] = true) :
    (∀ j < k, rowMatches w opcodeRows[j] = false) ↔ (opcodeRows[k].build w).wellFormed = true := by
  rw [wellFormed_build_iff]
  refine ⟨fun first j h off => ?_, fun other j hjk => ?_⟩
  · have taken := (rowMatches_iff_offField h hk).2 off
    exact Bool.false_ne_true ((first j (overlaps_lt j k h)).symm.trans taken)
  · rw [← Bool.not_eq_true]
    intro hj
    have h : Overlaps j k := rowsOverlapOnlyAtTheOtherOffsets w j k hjk hj hk
    exact other j h ((rowMatches_iff_offField h hk).1 hj)

/-! ### What the decoder answers -/

theorem find?_opcodeRows (r : OpcodeRow) : opcodeRows.find? (rowMatches w) = some r ↔
    ∃ k : Fin 13, rowMatches w opcodeRows[k] = true ∧ (∀ j < k, rowMatches w opcodeRows[j] = false) ∧
      opcodeRows[k] = r := by
  rw [List.find?_eq_some_iff_getElem]
  constructor
  · rintro ⟨taken, n, hn, rfl, first⟩
    exact ⟨⟨n, hn⟩, taken, fun j hj => by simpa using first j hj, rfl⟩
  · rintro ⟨k, taken, first, rfl⟩
    exact ⟨taken, k, k.isLt, rfl, fun j hj => by simpa using first ⟨j, hj.trans k.isLt⟩ hj⟩

theorem decode_eq_transaction_iff_find : decode w = .transaction i ↔
    ∃ r, opcodeRows.find? (rowMatches w) = some r ∧ r.build w = i := by
  unfold decode
  cases opcodeRows.find? (rowMatches w) <;> simp

/-- The decoder takes the first row that matches (R66). -/
theorem decode_eq_transaction_iff_row : decode w = .transaction i ↔
    ∃ k : Fin 13, rowMatches w opcodeRows[k] = true ∧ (∀ j < k, rowMatches w opcodeRows[j] = false) ∧
      opcodeRows[k].build w = i := by
  rw [decode_eq_transaction_iff_find]
  constructor
  · rintro ⟨r, hr, built⟩
    obtain ⟨k, taken, first, rfl⟩ := (find?_opcodeRows r).1 hr
    exact ⟨k, taken, first, built⟩
  · rintro ⟨k, taken, first, built⟩
    exact ⟨_, (find?_opcodeRows _).2 ⟨k, taken, first, rfl⟩, built⟩

/-- Decoding inverts encoding on the well-formed transactions, and on them alone. -/
theorem decode_eq_transaction_iff : decode w = .transaction i ↔ encode i = w ∧ i.wellFormed = true := by
  rw [decode_eq_transaction_iff_row]
  constructor
  · rintro ⟨k, taken, first, rfl⟩
    exact ⟨(rowMatches_iff_encode_build w k).1 taken, (first_row_iff_wellFormed taken).1 first⟩
  · rintro ⟨rfl, wf⟩
    have built := build_encode i
    refine ⟨rowIndex i, rowMatches_encode i, (first_row_iff_wellFormed (rowMatches_encode i)).2 ?_, built⟩
    rwa [built]

/-- Settles O2. -/
theorem decodeOfEncodeIsTheTransaction : Obligations.DecodeOfEncodeIsTheTransaction :=
  fun _ wf => decode_eq_transaction_iff.2 ⟨rfl, wf⟩

/-- Settles O3. -/
theorem encodeOfDecodeIsTheWord : Obligations.EncodeOfDecodeIsTheWord :=
  fun _ _ => decode_eq_transaction_iff.1

/-! ### Refusals -/

theorem kindOf_encode (i : Instr) : kindOf (encode i) = some i.kind := by
  cases i with
  | capture pol tick => exact Laws.KindField.capture pol tick
  | rdOther off => exact Laws.KindField.rdOther off
  | wrCtrl data => exact Laws.KindField.wrCtrl data
  | wrStatus data => exact Laws.KindField.wrStatus data
  | wrResult data => exact Laws.KindField.wrResult data
  | wrOther off data => exact Laws.KindField.wrOther off data
  | _ => rfl

theorem encode_and_mbzMask (i : Instr) : encode i &&& mbzMask i.kind = 0#32 := by
  cases i with
  | capture pol tick => exact Laws.MustBeZero.capture pol tick
  | rdOther off => exact Laws.MustBeZero.rdOther off
  | wrCtrl data => exact Laws.MustBeZero.wrCtrl data
  | wrStatus data => exact Laws.MustBeZero.wrStatus data
  | wrResult data => exact Laws.MustBeZero.wrResult data
  | wrOther off data => exact Laws.MustBeZero.wrOther off data
  | _ => rfl

/-- A word that decodes to a transaction has its kind and no must-be-zero bit set. -/
theorem kindOf_of_decode (h : decode w = .transaction i) : kindOf w = some i.kind ∧ w &&& mbzMask i.kind = 0#32 := by
  obtain ⟨rfl, -⟩ := decode_eq_transaction_iff.1 h
  exact ⟨kindOf_encode i, encode_and_mbzMask i⟩

theorem decode_transaction_or_refuse (w : Word) :
    (∃ i, decode w = .transaction i) ∨ decode w = .refuse (refusalReason w) := by
  unfold decode
  cases opcodeRows.find? (rowMatches w) <;> simp

theorem exists_transaction_of_rowMatches {k : Fin 13} (h : rowMatches w opcodeRows[k] = true) :
    ∃ i, decode w = .transaction i := by
  obtain ⟨r, hr⟩ := Option.isSome_iff_exists.1 (List.find?_isSome.2 ⟨_, List.getElem_mem _, h⟩)
  exact ⟨r.build w, decode_eq_transaction_iff_find.2 ⟨r, hr, rfl⟩⟩

/-- The row of a kind that fixes nothing but KIND and the must-be-zero bits. -/
def kindRow : Kind → Fin 13
  | .reset => 0
  | .tick => 1
  | .capture => 2
  | .service => 3
  | .busrd => 7
  | .buswr => 11
  | .cntClear => 12

theorem kindRow_mask (k : Kind) : opcodeRows[kindRow k].mask = 0xF0000000#32 ||| mbzMask k := by
  cases k <;> rfl

theorem kindRow_matchWord (k : Kind) (f : BitVec 4) (h : kindOfField f = some k) :
    opcodeRows[kindRow k].matchWord = f.setWidth 32 <<< 28 := by
  revert f
  cases k <;> decide

theorem rowMatches_kindRow {k : Kind} (named : kindOf w = some k) (zero : w &&& mbzMask k = 0#32) :
    rowMatches w opcodeRows[kindRow k] = true := by
  rw [rowMatches_iff, kindRow_mask, BitVec.and_or_distrib_left, zero, kindRow_matchWord k (kindField w) named,
    kindField_in_place, BitVec.or_zero]

theorem kindOfField_eq_none_iff : ∀ f : BitVec 4, kindOfField f = none ↔ f.toNat = 0 ∨ 8 ≤ f.toNat := by
  decide

/-- Settles O5: a word that decodes is an encoding, whose kind and must-be-zero bits are known; a word of a named kind
without a must-be-zero bit is taken by the row of that kind. -/
theorem refusedExactlyForReservedKindOrNonzeroBit : Obligations.RefusedExactlyForReservedKindOrNonzeroBit := by
  intro w
  refine ⟨kindOfField_eq_none_iff (kindField w), fun reserved => ?_, fun k named nonzero => ?_,
    fun k named zero => ?_, fun r s refused good => ⟨deliver_refuse good refused, ?_⟩⟩
  · obtain ⟨i, hi⟩ | refused := decode_transaction_or_refuse w
    · exact absurd (reserved.symm.trans (kindOf_of_decode hi).1) nofun
    · rw [refused, refusalReason, reserved]
  · obtain ⟨i, hi⟩ | refused := decode_transaction_or_refuse w
    · obtain ⟨kind, zero⟩ := kindOf_of_decode hi
      obtain rfl : k = i.kind := Option.some.inj (named.symm.trans kind)
      exact absurd zero nonzero
    · rw [refused, refusalReason, named]
  · obtain ⟨i, hi⟩ := exists_transaction_of_rowMatches (rowMatches_kindRow named zero)
    exact ⟨i, hi, Option.some.inj ((kindOf_of_decode hi).1.symm.trans named)⟩
  · simp [endKind, good.noFault]

/-! ### Operands -/

theorem polField_eq_rising_iff (w : Word) : polField w = .rising ↔ w.field 27 27 = 1 := by
  have bit : w.field 27 27 = (BitVec.ofBool (w.getLsbD 27)).toNat := congrArg BitVec.toNat (extractLsb'_one w 27)
  rw [bit, polField]
  cases w.getLsbD 27 <;> simp

theorem wdataOperand_toNat (data : BitVec 16) : (wdataOperand data).toNat = data.toNat := by
  rw [wdataOperand, BitVec.toNat_setWidth]
  exact Nat.mod_eq_of_lt (data.isLt.trans (by decide))

/-- Settles O6: the word is the transaction's encoding (`decode_eq_transaction_iff`), whose fields are its operands. -/
theorem operandsAreTheUnsignedFields : Obligations.OperandsAreTheUnsignedFields := by
  intro w
  refine ⟨fun pol tick h => ?_, fun off h => ?_, fun data h => ?_, fun data h => ?_, fun data h => ?_,
    fun off data h => ?_⟩ <;> obtain ⟨rfl, -⟩ := decode_eq_transaction_iff.1 h
  · rw [← polField_eq_rising_iff, polField_encode_capture]
    exact ⟨congrArg BitVec.toNat (tickField_encode_capture pol tick).symm, Iff.rfl⟩
  · exact congrArg BitVec.toNat (offField_encode_rdOther off).symm
  · rw [wdataOperand_toNat]
    exact congrArg BitVec.toNat (dataField_encode_wrCtrl data).symm
  · rw [wdataOperand_toNat]
    exact congrArg BitVec.toNat (dataField_encode_wrStatus data).symm
  · rw [wdataOperand_toNat]
    exact congrArg BitVec.toNat (dataField_encode_wrResult data).symm
  · rw [wdataOperand_toNat]
    exact ⟨congrArg BitVec.toNat (offField_encode_wrOther off data).symm,
      congrArg BitVec.toNat (dataField_encode_wrOther off data).symm⟩

/-! ### Lines of a script -/

theorem setWidth_ofNat_of_lt {n t : Nat} (h : t < 2 ^ n) : (BitVec.ofNat n t).setWidth 32 = BitVec.ofNat 32 t := by
  apply BitVec.eq_of_toNat_eq
  rw [BitVec.toNat_setWidth, BitVec.toNat_ofNat, BitVec.toNat_ofNat, Nat.mod_eq_of_lt h]

theorem encode_busReadInstr (off : BitVec 8) : encode (busReadInstr off) = encode (.rdOther off) := by
  unfold busReadInstr
  split_ifs with status result ctrl
  · rw [status]
    rfl
  · rw [result]
    rfl
  · rw [ctrl]
    rfl
  · rfl

theorem encode_busWriteInstr (off : BitVec 8) (data : BitVec 16) :
    encode (busWriteInstr off data) = encode (.wrOther off data) := by
  have offFirst : encode (.wrOther off data) = (0x60000000#32 ||| off.setWidth 32) ||| dataBits data := by
    rw [encode, BitVec.or_assoc, BitVec.or_assoc, BitVec.or_comm (dataBits data)]
  unfold busWriteInstr
  split_ifs with ctrl status result
  · rw [offFirst, ctrl]
    rfl
  · rw [offFirst, status]
    rfl
  · rw [offFirst, result]
    rfl
  · rfl

theorem wellFormed_busReadInstr (off : BitVec 8) : (busReadInstr off).wellFormed = true := by
  unfold busReadInstr
  split_ifs with status result ctrl
  · rfl
  · rfl
  · rfl
  · simp [Instr.wellFormed, registerOffsets, status, result, ctrl]

theorem wellFormed_busWriteInstr (off : BitVec 8) (data : BitVec 16) : (busWriteInstr off data).wellFormed = true := by
  unfold busWriteInstr
  split_ifs with ctrl status result
  · rfl
  · rfl
  · rfl
  · simp [Instr.wellFormed, registerOffsets, status, result, ctrl]

theorem wellFormed_asmInstr (a : Asm) : (asmInstr a).wellFormed = true := by
  cases a with
  | rd off => exact wellFormed_busReadInstr _
  | wr off d => exact wellFormed_busWriteInstr _ _
  | _ => rfl

/-- The word column of R73 is the encoding of the transaction that the line names. -/
theorem asmBits_eq_encode {a : Asm} (h : asmInRange a = true) : asmBits a = encode (asmInstr a) := by
  cases a with
  | captureRise t | captureFall t =>
    have inRange : t < 2 ^ 24 := of_decide_eq_true h
    simp only [asmBits, asmInstr, encode, setWidth_ofNat_of_lt inRange]
    rfl
  | rd off =>
    have inRange : off < 2 ^ 8 := of_decide_eq_true h
    rw [asmInstr, encode_busReadInstr, encode, setWidth_ofNat_of_lt inRange, asmBits]
  | wrCtrl d =>
    have inRange : d < 2 ^ 16 := of_decide_eq_true h
    rw [asmInstr, encode, dataBits, setWidth_ofNat_of_lt inRange, asmBits]
  | wr off d =>
    obtain ⟨offInRange, dataInRange⟩ : off < 2 ^ 8 ∧ d < 2 ^ 16 := by simpa [asmInRange] using h
    rw [asmInstr, encode_busWriteInstr, encode, dataBits, setWidth_ofNat_of_lt offInRange,
      setWidth_ofNat_of_lt dataInRange, asmBits]
  | _ => rfl

/-- Settles O7: a line in range assembles to the encoding of a well-formed transaction, which decodes to it. -/
theorem assembledLinesDecode : Obligations.AssembledLinesDecode := by
  refine fun a => ⟨fun inRange => ⟨asmBits a, if_pos inRange, ?_⟩, fun outOfRange => ?_⟩
  · exact decode_eq_transaction_iff.2 ⟨(asmBits_eq_encode inRange).symm, wellFormed_asmInstr a⟩
  · rw [assemble, outOfRange, if_neg Bool.false_ne_true]

/-- Settles O1: the rule's own words, evaluated. -/
theorem workedEncodingsDecode : Obligations.WorkedEncodingsDecode := by
  unfold Obligations.WorkedEncodingsDecode
  decide

end Sys2Proof.Machine
end

section
/-! PROOFS. Capture and service (40_capture_engine.md): O8 to O18. -/

namespace Sys2Proof.Machine

variable {s t : State} {i : Instr}

/-! ### The width of two ticks -/

section
variable {r f M : Nat}

theorem computeWidth_of_le (h : r ≤ f) : computeWidth r f M = f - r := if_pos h

/-- A pair of ticks that wraps (R86). -/
theorem computeWidth_of_wrap (h : f < r) : computeWidth r f M = f + (M - r) := if_neg (Nat.not_le.2 h)

theorem computeWidth_le (hr : r < M) (hf : f < M) : computeWidth r f M ≤ M - 1 :=
  Nat.le_sub_one_of_lt (computeWidth_lt hr hf)

/-- R87: adding `M` once brings the negative difference of a wrapped pair into [0, M-1]. -/
theorem computeWidth_eq_emod (hr : r < M) (hf : f < M) : (computeWidth r f M : Int) = ((f : Int) - r) % M := by
  obtain le | wrap := le_or_gt r f
  · rw [computeWidth_of_le le, Int.emod_eq_of_lt (by omega) (by omega)]
    omega
  · rw [computeWidth_of_wrap wrap, ← Int.add_emod_right, Int.emod_eq_of_lt (by omega) (by omega)]
    omega

/-- Settles O14: the wrapped case's intermediate values are bounded because `f < r` leaves room below `M - 1`. -/
theorem computeWidthIsTheDifferenceModM : Obligations.ComputeWidthIsTheDifferenceModM := by
  intro r f M hr hf
  refine ⟨computeWidth_eq_emod hr hf, computeWidth_le hr hf, fun W fits => ?_, fun wrap => ?_⟩
  · exact (computeWidth_lt hr hf).trans_le fits
  · omega

/-- R88: the borrow of a `W`-bit subtraction adds `2^W`, as `computeWidth` adds `M`. -/
theorem toNat_ofNat_sub_ofNat {W : Nat} (hr : r < 2 ^ W) (hf : f < 2 ^ W) :
    (BitVec.ofNat W f - BitVec.ofNat W r).toNat = computeWidth r f (2 ^ W) := by
  rw [BitVec.toNat_sub, BitVec.toNat_ofNat, BitVec.toNat_ofNat, Nat.mod_eq_of_lt hr, Nat.mod_eq_of_lt hf]
  obtain le | wrap := le_or_gt r f
  · have borrowed : 2 ^ W - r + f = f - r + 2 ^ W := by omega
    rw [computeWidth_of_le le, borrowed, Nat.add_mod_right, Nat.mod_eq_of_lt (by omega)]
  · rw [computeWidth_of_wrap wrap, Nat.add_comm, Nat.mod_eq_of_lt (by omega)]

/-- Settles O15: at a pair that wraps, the subtraction adds `2^W` where `computeWidth` adds the smaller `M`. -/
theorem wrappingSubtractionOnlyForAFullModulus : Obligations.WrappingSubtractionOnlyForAFullModulus := by
  refine ⟨fun W r f => toNat_ofNat_sub_ofNat, fun W M r f hM hr wrap => ?_, by decide, by decide⟩
  rw [toNat_ofNat_sub_ofNat (hr.trans hM) (wrap.trans (hr.trans hM)), computeWidth_of_wrap wrap,
    computeWidth_of_wrap wrap]
  omega

/-- Settles O16: the largest width is reached by an unwrapped pair and, where there is one, by a wrapped pair. -/
theorem widthCornersAreZeroAndTheLargest : Obligations.WidthCornersAreZeroAndTheLargest := by
  intro M _
  refine ⟨fun r => ?_, fun r f => computeWidth_le, computeWidth_of_le (Nat.zero_le _), fun _ => ?_⟩
  · rw [computeWidth_of_le le_rfl, Nat.sub_self]
  · rw [computeWidth_of_wrap Nat.zero_lt_one, Nat.zero_add]

end

/-! ### CAPTURE -/

theorem exec_capture (hf : s.fault = none) (pol : Polarity) (tick : BitVec 24) :
    exec (.capture pol tick) s =
      if s.cfg.M ≤ tick.toNat then raiseFault .tickRange (.capture pol tick) s
      else if s.pending then raiseFault .edgeOverrun (.capture pol tick) s
      else .next ((s.setCapture (some tick.toNat) (some pol)).setPending true) :=
  whileNoFault_of_none hf _

theorem environment_enabled (hf : s.fault = none) : agentEnabled .environment s = true := by
  simp [agentEnabled, hf]

/-- Settles O8: the three outcomes are the branches of `exec_capture`, the range check first (R144). -/
theorem captureLatchesOrFaults : Obligations.CaptureLatchesOrFaults := by
  intro s pol tick hf
  rw [exec_capture hf]
  refine ⟨environment_enabled hf, fun below free => ?_, fun range => ?_, fun below pending => ?_⟩
  · rw [if_neg (Nat.not_le.2 below), if_neg (by simp [free])]
    rfl
  · rw [if_pos range]
    rfl
  · rw [if_neg (Nat.not_le.2 below), if_pos pending]
    rfl

/-! ### SERVICE -/

/-- R81: an edge is accepted when it is pending and, under SEQ_CHECK, has the polarity that PHASE expects (R84). -/
theorem edgeAccepted_iff : edgeAccepted s = true ↔
    s.pending = true ∧ (s.cfg.seqCheck = true → s.captPol = some (expectedPolarity s.phase)) := by
  cases checked : s.cfg.seqCheck <;> simp [edgeAccepted, checked]

theorem exec_service_of_idle (hf : s.fault = none) (idle : s.pending = false) : exec .service s = .next s := by
  have guarded : exec .service s = _ := whileNoFault_of_none hf _
  rw [guarded, if_neg (by simp [idle])]

/-- Settles O13: the rule for an idle SERVICE; the engine's agent is enabled by PENDING (R15). -/
theorem serviceWithNothingPendingChangesNothing : Obligations.ServiceWithNothingPendingChangesNothing :=
  fun s hf idle => ⟨exec_service_of_idle hf idle, by simp [agentEnabled, idle]⟩

/-- SERVICE with an edge pending and SEQ_CHECK on compares the captured polarity with the expected one (R81, R84). -/
theorem exec_service_of_checked {v : Nat} {p : Polarity} (hf : s.fault = none) (pending : s.pending = true)
    (checked : s.cfg.seqCheck = true) (val : s.captVal = some v) (pol : s.captPol = some p) :
    exec .service s = if p = expectedPolarity s.phase then acceptEdge v s else .next (s.setPending false) := by
  have guarded : exec .service s = _ := whileNoFault_of_none hf _
  rw [guarded, if_pos pending, val, readWritten_some, if_pos checked, pol, readWritten_some]

/-- Settles O11: the comparison of `exec_service_of_checked` fails. -/
theorem serviceIgnoresAnEdgeOutOfSequence : Obligations.ServiceIgnoresAnEdgeOutOfSequence := by
  intro s v p hf pending checked val pol unexpected
  rw [exec_service_of_checked hf pending checked val pol, if_neg unexpected]
  rfl

/-- Without SEQ_CHECK, SERVICE takes the pending tick whatever its polarity (R84, log entry 10). -/
theorem exec_service_of_unchecked (hf : s.fault = none) (unchecked : s.cfg.seqCheck = false) :
    exec .service s =
      if s.pending then readWritten s.captVal .service s fun v => acceptEdge v s else .next s := by
  have guarded : exec .service s = _ := whileNoFault_of_none hf _
  simp only [guarded, unchecked, Bool.false_eq_true, if_false]

/-- An accepted edge is handed to the branch that PHASE selects (R81). -/
theorem exec_service_of_accepted {v : Nat} (hf : s.fault = none) (accepted : edgeAccepted s = true)
    (val : s.captVal = some v) : exec .service s = acceptEdge v s := by
  obtain ⟨pending, expected⟩ := edgeAccepted_iff.1 accepted
  cases checked : s.cfg.seqCheck with
  | true => rw [exec_service_of_checked hf pending checked val (expected checked), if_pos rfl]
  | false => rw [exec_service_of_unchecked hf checked, if_pos pending, val, readWritten_some]

theorem acceptEdge_of_rising (h : s.phase = .waitingForRising) (v : Nat) : acceptEdge v s = risingBranch v s := by
  rw [acceptEdge, h]

theorem acceptEdge_of_falling {r : Nat} (h : s.phase = .waitingForFalling) (rise : s.rise = some r) (v : Nat) :
    acceptEdge v s =
      .next (((s.setPending false).latchWidth (computeWidth r v s.cfg.M)).setPhase .waitingForRising) := by
  rw [acceptEdge, h, fallingBranch, rise, readWritten_some]

theorem State.latchWidth_of_ready (h : s.ready = true) (w : Nat) : s.latchWidth w = s := by
  rw [State.latchWidth, h]

theorem State.latchWidth_of_not_ready (h : s.ready = false) (w : Nat) :
    s.latchWidth w = (s.setWidth (some w)).setReady true := by
  rw [State.latchWidth, h]

/-- Settles O9: the accepted edge takes the rising branch, whose writes are the statement's. -/
theorem serviceRisingBranchRecordsTheEdge : Obligations.ServiceRisingBranchRecordsTheEdge := by
  intro s v hf accepted val phase
  exact (exec_service_of_accepted hf accepted val).trans (acceptEdge_of_rising phase v)

/-- Settles O10: the two clauses are the two cases of the result latch. -/
theorem serviceFallingBranchLatchesOrDropsTheWidth : Obligations.ServiceFallingBranchLatchesOrDropsTheWidth := by
  intro s r v hf accepted val phase rise hr hv
  rw [exec_service_of_accepted hf accepted val, acceptEdge_of_falling phase rise]
  refine ⟨computeWidth_le hr hv, fun notReady => ?_, fun ready => ?_⟩
  · rw [State.latchWidth_of_not_ready (s := s.setPending false) notReady]
    rfl
  · rw [State.latchWidth_of_ready (s := s.setPending false) ready]
    rfl

/-! ### CAPT_POL without SEQ_CHECK

Changing CAPT_POL before an unchecked SERVICE is the same as changing it after. -/

/-- The state with another captured polarity. -/
def State.setCaptPol (p : Option Polarity) (s : State) : State := s.setCapture s.captVal p

section
variable (p : Option Polarity)

theorem readWritten_setCaptPol {α : Type} {o : Option α} {k k' : α → Result}
    (hk : ∀ v, k' v = mapNext (State.setCaptPol p) (k v)) :
    readWritten o i (s.setCaptPol p) k' = mapNext (State.setCaptPol p) (readWritten o i s k) := by
  cases o with
  | none => rfl
  | some v => exact hk v

theorem State.latchWidth_setCaptPol (s : State) (w : Nat) :
    (s.setCaptPol p).latchWidth w = (s.latchWidth w).setCaptPol p := by
  cases ready : s.ready with
  | true => rw [latchWidth_of_ready ready, latchWidth_of_ready (s := s.setCaptPol p) ready]
  | false =>
    rw [latchWidth_of_not_ready ready, latchWidth_of_not_ready (s := s.setCaptPol p) ready]
    rfl

theorem acceptEdge_setCaptPol (v : Nat) (s : State) :
    acceptEdge v (s.setCaptPol p) = mapNext (State.setCaptPol p) (acceptEdge v s) := by
  have hphase : (s.setCaptPol p).phase = s.phase := rfl
  rw [acceptEdge, acceptEdge, hphase]
  cases s.phase with
  | waitingForRising => rfl
  | waitingForFalling =>
    refine readWritten_setCaptPol p fun r => ?_
    exact congrArg (fun u : State => Host.Outcome.next (u.setPhase .waitingForRising))
      ((s.setPending false).latchWidth_setCaptPol p (computeWidth r v s.cfg.M))

theorem exec_service_setCaptPol (hf : s.fault = none) (unchecked : s.cfg.seqCheck = false) :
    exec .service (s.setCaptPol p) = mapNext (State.setCaptPol p) (exec .service s) := by
  rw [exec_service_of_unchecked hf unchecked, exec_service_of_unchecked (s := s.setCaptPol p) hf unchecked]
  exact ite_mapNext (readWritten_setCaptPol p fun v => acceptEdge_setCaptPol p v s) rfl

end

/-- Settles O12: an unchecked SERVICE commutes with a change of CAPT_POL. -/
theorem polarityIsNotReadWithoutTheCheck : Obligations.PolarityIsNotReadWithoutTheCheck := by
  intro s t p unchecked h
  have changed := exec_service_setCaptPol p (exec_next_effect h).1 unchecked
  rwa [h] at changed

/-! ### PHASE, READY and WIDTH over every transaction -/

/-- A SERVICE that accepts an edge takes one of the two branches, or meets a *none* and raises a fault. -/
theorem Effect.phase_ne_of_accepted (effect : Effect .service s t) (accepted : edgeAccepted s = true)
    (hf : t.fault = none) : t.phase ≠ s.phase := by
  cases effect with
  | raise => exact nomatch hf
  | serviceIdle _ idle => exact nomatch idle.symm.trans (edgeAccepted_iff.1 accepted).1
  | serviceIgnored _ _ _ ignored => exact nomatch ignored.symm.trans accepted
  | serviceRising _ _ _ _ phase | serviceFalling _ _ _ _ _ phase => simp [phase]

/-- ABORT and RESET, which raise no fault, arm the block and discard an unread result (R104, R170). -/
theorem Effect.phase_ready_of_abort_or_reset (effect : Effect i s t) (h : isAbort i = true ∨ i = .reset)
    (hf : t.fault = none) : t.phase = .waitingForRising ∧ t.ready = false := by
  cases effect with
  | raise => exact nomatch hf
  | reset | abort => exact ⟨rfl, rfl⟩
  | wrCtrlZero _ _ _ notAbort => simp [notAbort] at h
  | _ => simp [isAbort] at h

/-- An accepted edge, ABORT and RESET alone write PHASE (R90). -/
theorem Effect.phase_eq (effect : Effect i s t) (notAccepted : ¬ (i = .service ∧ edgeAccepted s = true))
    (notCleared : ¬ (isAbort i = true ∨ i = .reset)) : t.phase = s.phase := by
  cases effect with
  | serviceRising _ _ accepted | serviceFalling _ _ _ accepted => exact absurd ⟨rfl, accepted⟩ notAccepted
  | reset => exact absurd (.inr rfl) notCleared
  | abort _ _ isAbort => exact absurd (.inl isAbort) notCleared
  | _ => rfl

theorem latchesHere_iff : latchesHere i s = true ↔
    i = .service ∧ edgeAccepted s = true ∧ s.phase = .waitingForFalling ∧ s.ready = false := by
  simp [latchesHere, and_assoc]

/-- A latching SERVICE alone stores a width and raises READY (R83, R109). -/
theorem Effect.latches_or_keeps (effect : Effect i s t) :
    latchesHere i s = true ∨ ((t.width = s.width ∨ t.width = none) ∧ (t.ready = true → s.ready = true)) := by
  cases effect with
  | serviceFalling _ _ _ accepted _ phase =>
    cases ready : s.ready with
    | true => exact .inr ⟨.inl (by simp [ready]), fun _ => rfl⟩
    | false => exact .inl (latchesHere_iff.2 ⟨rfl, accepted, phase, ready⟩)
  | reset => exact .inr ⟨.inr rfl, nofun⟩
  | abort | rdResult => exact .inr ⟨.inl rfl, nofun⟩
  | _ => exact .inr ⟨.inl rfl, id⟩

/-- Settles O17: one clause for each of the rules above. -/
theorem phaseAlternatesOnAcceptedEdgesOnly : Obligations.PhaseAlternatesOnAcceptedEdgesOnly := by
  intro i s t h hf
  obtain ⟨-, effect⟩ := exec_next_effect h
  refine ⟨?_, fun cleared => effect.phase_ready_of_abort_or_reset cleared hf, effect.phase_eq, fun notReady ready => ?_⟩
  · rintro rfl accepted
    exact effect.phase_ne_of_accepted accepted hf
  · obtain latches | ⟨-, kept⟩ := effect.latches_or_keeps
    · exact latches
    · exact nomatch notReady.symm.trans (kept ready)

/-- Only an accepted edge starts a pulse: ABORT and RESET leave PHASE at WAITING_FOR_RISING. -/
theorem Effect.accepted_of_pulse_start (effect : Effect i s t) (before : s.phase = .waitingForRising)
    (after : t.phase = .waitingForFalling) : i = .service ∧ edgeAccepted s = true := by
  cases effect with
  | serviceRising _ _ accepted => exact ⟨rfl, accepted⟩
  | reset | abort | serviceFalling => exact nomatch after
  | _ => exact nomatch before.symm.trans after

/-- Settles O18: an accepted edge has, under SEQ_CHECK, the polarity that PHASE expects. -/
theorem checkedPulsesRunFromRisingToFalling : Obligations.CheckedPulsesRunFromRisingToFalling := by
  intro i s t checked h
  obtain ⟨-, effect⟩ := exec_next_effect h
  have expected {p : Phase} (phase : s.phase = p) (accepted : edgeAccepted s = true) :
      s.captPol = some (expectedPolarity p) :=
    phase ▸ (edgeAccepted_iff.1 accepted).2 checked
  refine ⟨fun before after => ?_, fun changed stored => ?_⟩
  · obtain ⟨service, accepted⟩ := effect.accepted_of_pulse_start before after
    exact ⟨service, expected before accepted⟩
  · obtain latches | ⟨same | cleared, -⟩ := effect.latches_or_keeps
    · obtain ⟨service, accepted, phase, -⟩ := latchesHere_iff.1 latches
      exact ⟨service, expected phase accepted, phase⟩
    · exact absurd same changed
    · exact absurd cleared stored

end Sys2Proof.Machine
end

section
/-! PROOFS. The consumer's bus (41_consumer_bus.md): O19 to O24, O26 to O28, O30. -/

namespace Sys2Proof.Machine

variable {s t : State} {i : Instr}

/-! ### The bits of a response -/

theorem getLsbD_flagAt (b : Bool) {n m : Nat} (hm : m < 32) : (flagAt b n).getLsbD m = (b && decide (m = n)) := by
  obtain low | rfl | high := lt_trichotomy m n
  · simp [flagAt, low, low.ne]
  · simp [flagAt, hm]
  · have shifted : m - n ≠ 0 := Nat.sub_ne_zero_of_lt high
    simp [flagAt, high.ne', BitVec.getLsbD_setWidth, BitVec.getLsbD_ofBool, shifted]

/-- STATUS holds READY, PHASE and PENDING in bits 0, 1 and 2, and zeros above (R32). -/
theorem getLsbD_statusWord (s : State) {n : Nat} (hn : n < 32) :
    (statusWord s).getLsbD n =
      ((s.pending && decide (n = 2) || phaseBit s.phase && decide (n = 1)) || s.ready && decide (n = 0)) := by
  simp only [statusWord, BitVec.getLsbD_or, getLsbD_flagAt _ hn]

theorem field_statusWord_high (s : State) : (statusWord s).field 31 3 = 0 := by
  have high : (statusWord s).extractLsb' 3 29 = 0#29 := by
    apply BitVec.eq_of_getLsbD_eq
    intro n hn
    have inWord : 3 + n < 32 := by omega
    rw [BitVec.getLsbD_extractLsb', getLsbD_statusWord s inWord]
    simp
    omega
  exact congrArg BitVec.toNat high

theorem phaseBit_iff (p : Phase) : phaseBit p = true ↔ p = .waitingForFalling := by
  cases p <;> decide

theorem resultWord_invalid (c : Config) (v : Nat) : resultWord c false v = BitVec.ofNat 32 (v % 2 ^ c.W) := by
  have noFlag : flagAt false 31 = 0#32 := rfl
  rw [resultWord, noFlag, BitVec.zero_or, tickBits]

/-- Bit 31 of a RESULT response is VALID: the width ends below it (R7, R33). -/
theorem getLsbD_resultWord {c : Config} (h : c.WF) (valid : Bool) (v : Nat) :
    (resultWord c valid v).getLsbD 31 = valid := by
  have fits : v % 2 ^ c.W < 2 ^ 31 :=
    (Nat.mod_lt _ (Nat.two_pow_pos _)).trans_le (Nat.pow_le_pow_right Nat.two_pos (h.wLe.trans (by decide)))
  rw [resultWord, BitVec.getLsbD_or, getLsbD_flagAt _ (by decide), tickBits, BitVec.getLsbD_ofNat,
    Nat.testBit_lt_two_pow fits]
  simp

/-- The low `W` bits of a RESULT response are the tick value that it carries (R33). -/
theorem toNat_resultWord_mod {c : Config} (h : c.WF) {w : Nat} (below : w < c.M) :
    (resultWord c true w).toNat % 2 ^ c.W = w := by
  have fits : w < 2 ^ c.W := tick_fits_register h below
  have inWord : w < 2 ^ 32 := fits.trans_le (Nat.pow_le_pow_right Nat.two_pos (h.wLe.trans (by decide)))
  have flag : 2 ^ 31 % 2 ^ c.W = 0 := Nat.mod_eq_zero_of_dvd (Nat.pow_dvd_pow 2 (h.wLe.trans (by decide)))
  calc (resultWord c true w).toNat % 2 ^ c.W
    _ = (2 ^ 31 ||| w) % 2 ^ c.W := by
      rw [resultWord_valid h below, BitVec.toNat_or, BitVec.toNat_ofNat, BitVec.toNat_ofNat, Nat.mod_eq_of_lt inWord]
      rfl
    _ = w := by rw [Nat.or_mod_two_pow, flag, Nat.mod_eq_of_lt fits, Nat.zero_or]

/-! ### Reads -/

theorem spelledBy_encode (h : i.wellFormed = true) : SpelledBy i (encode i) :=
  ⟨rfl, decodeOfEncodeIsTheTransaction i h⟩

/-- Settles O19: the response is `statusWord`, read bit by bit. -/
theorem readStatusShowsTheFlags : Obligations.ReadStatusShowsTheFlags := by
  refine ⟨spelledBy_encode (i := .rdStatus) rfl, fun s hf => ⟨statusWord s, whileNoFault_of_none hf _, ?_⟩⟩
  refine ⟨?_, ?_, ?_, field_statusWord_high s⟩
  · rw [getLsbD_statusWord s (by decide)]
    simp
  · rw [getLsbD_statusWord s (by decide)]
    simp [phaseBit_iff]
  · rw [getLsbD_statusWord s (by decide)]
    simp

/-- Settles O20: the host finds VALID and the width where `resultWord` puts them. -/
theorem readResultDeliversTheWidthAndClearsReady : Obligations.ReadResultDeliversTheWidthAndClearsReady := by
  refine ⟨spelledBy_encode (i := .rdResult) rfl, fun s w hf wf ready width below => ?_⟩
  rw [← resultWord_valid wf below]
  refine ⟨exec_rdResult_of_ready hf ready width, ?_⟩
  rw [hostWidth, getLsbD_resultWord wf, if_pos rfl, toNat_resultWord_mod wf below]

theorem exec_rdResult_of_not_ready (hf : s.fault = none) (notReady : s.ready = false) :
    exec .rdResult s = .next (s.countDraw.logResponse (resultWord s.cfg false (drawnWidth s))) := by
  have guarded : exec .rdResult s = _ := whileNoFault_of_none hf _
  rw [guarded, if_neg (by simp [notReady]), answerRead]

/-- Settles O21: the value shown is the draw cut to `W` bits, whatever the draw is (log entry 3). -/
theorem readResultWithoutAResultAnswersADraw : Obligations.ReadResultWithoutAResultAnswersADraw := by
  intro s hf wf notReady
  refine ⟨drawnWidth s % 2 ^ s.cfg.W, Nat.mod_lt _ (Nat.two_pow_pos _), ?_⟩
  rw [← resultWord_invalid]
  refine ⟨exec_rdResult_of_not_ready hf notReady, ?_⟩
  rw [hostWidth, getLsbD_resultWord wf, if_neg Bool.false_ne_true]

/-- Settles O22: RD_CTRL answers without looking at the state. -/
theorem readCtrlAnswersZero : Obligations.ReadCtrlAnswersZero :=
  ⟨spelledBy_encode (i := .rdCtrl) rfl, fun _ hf => whileNoFault_of_none hf _⟩

/-! ### Writes -/

/-- After an ABORT all three flags are 0 (R104). -/
theorem statusWord_abort (s : State) : statusWord s.abort = 0#32 := by
  simp [statusWord, flagAt, phaseBit]

theorem exec_wrCtrl (hf : s.fault = none) (data : BitVec 16) :
    exec (.wrCtrl data) s =
      if ctrlReservedSet (wdataOperand data) then raiseFault .ctrlReservedBits (.wrCtrl data) s
      else if ctrlAbort (wdataOperand data) then .next s.abort
      else .next s :=
  whileNoFault_of_none hf _

/-- Settles O23: the three outcomes are the branches of `exec_wrCtrl`, the reserved bits first. -/
theorem writeCtrlAbortsOrFaults : Obligations.WriteCtrlAbortsOrFaults := by
  intro s data hf
  rw [exec_wrCtrl hf]
  simp only [ctrlReservedSet_iff, ctrlAbort_iff]
  refine ⟨fun reserved => ?_, fun one => ⟨?_, ⟨rfl, rfl⟩, statusWord_abort s⟩, fun zero => ?_⟩
  · rw [if_pos reserved]
    rfl
  · rw [if_neg (by omega), if_pos (by omega)]
    rfl
  · rw [if_neg (by omega), if_neg (by omega)]

/-- Settles O24: the write is its fault, which sets FAULT alone. -/
theorem writesToReadOnlyRegistersFault : Obligations.WritesToReadOnlyRegistersFault :=
  fun _ _ hf => ⟨whileNoFault_of_none hf _, whileNoFault_of_none hf _⟩

/-! ### The response log over every transaction -/

/-- A bus read answers or raises a fault; nothing else appends to the log (R103). -/
theorem Effect.appends_or_keeps_log (effect : Effect i s t) :
    (isBusRead i = true ∧ t.fault = s.fault ∧ ∃ resp, t.log = s.log ++ [resp]) ∨
      ((isBusRead i = false ∨ t.fault ≠ none) ∧ t.log = s.log) := by
  cases effect with
  | rdStatus | rdResult | rdResultEmpty | rdCtrl => exact .inl ⟨rfl, rfl, _, rfl⟩
  | raise => exact .inr ⟨.inr (Option.some_ne_none _), rfl⟩
  | serviceFalling => exact .inr ⟨.inl rfl, by simp⟩
  | _ => exact .inr ⟨.inl rfl, rfl⟩

/-- Settles O26: the two cases of `Effect.appends_or_keeps_log` exclude each other. -/
theorem onlyCompletedReadsAppendToTheLog : Obligations.OnlyCompletedReadsAppendToTheLog := by
  intro i s t h
  obtain ⟨hf, effect⟩ := exec_next_effect h
  obtain ⟨read, sameFault, answered⟩ | ⟨silent, same⟩ := effect.appends_or_keeps_log
  · have noFault : t.fault = none := sameFault.trans hf
    exact ⟨fun _ _ => answered, fun silent => absurd silent (by simp [read, noFault])⟩
  · exact ⟨fun read noFault => absurd silent (by simp [read, noFault]), fun _ => same⟩

/-! ### Who writes WIDTH and READY -/

/-- A SERVICE that latches and RESET alone write WIDTH (R109, R170). -/
theorem Effect.latches_or_reset_of_width_ne (effect : Effect i s t) (changed : t.width ≠ s.width) :
    latchesHere i s = true ∨ i = .reset := by
  cases effect with
  | serviceFalling _ _ _ accepted _ phase =>
    cases ready : s.ready with
    | true => exact absurd (by simp [ready]) changed
    | false => exact .inl (latchesHere_iff.2 ⟨rfl, accepted, phase, ready⟩)
  | reset => exact .inr rfl
  | _ => exact absurd rfl changed

/-- READY rises in a SERVICE that latches alone (R83, R109). -/
theorem Effect.latches_of_ready_rises (effect : Effect i s t) (before : s.ready = false) (after : t.ready = true) :
    latchesHere i s = true := by
  obtain latches | ⟨-, kept⟩ := effect.latches_or_keeps
  · exact latches
  · exact nomatch before.symm.trans (kept after)

/-- READY falls in a RESULT read that answers it, an ABORT and a RESET alone (R109). -/
theorem Effect.delivers_or_discards (effect : Effect i s t) (before : s.ready = true) (after : t.ready = false) :
    deliversHere i s = true ∨ discardsHere i s = true := by
  cases effect with
  | rdResult => exact .inl (by simp [deliversHere, before])
  | reset => exact .inr (by simp [discardsHere, before])
  | abort _ _ isAbort => exact .inr (by simp [discardsHere, before, isAbort])
  | serviceFalling => simp at after
  | _ => exact nomatch before.symm.trans after

/-- Settles O27: one clause for each of the rules above. -/
theorem oneWriterAndOneReaderOfTheResult : Obligations.OneWriterAndOneReaderOfTheResult := by
  intro i s t h
  obtain ⟨-, effect⟩ := exec_next_effect h
  exact ⟨effect.latches_or_reset_of_width_ne, effect.latches_of_ready_rises, effect.delivers_or_discards⟩

/-! ### Results along a run -/

theorem countAlong_cons_of_next (p : Instr → State → Bool) {is : List Instr} (h : exec i s = .next t) :
    countAlong p (i :: is) s = (p i s).toNat + countAlong p is t := by
  rw [countAlong, h]
  cases p i s <;> rfl

/-- READY stays 0 through a run in which no SERVICE latches. -/
theorem runAll_ready_eq_false {is : List Instr} (notReady : s.ready = false) (hrun : runAll is s = .next t)
    (noLatch : countAlong latchesHere is s = 0) : t.ready = false := by
  induction is generalizing s with
  | nil =>
    cases hrun
    exact notReady
  | cons i is ih =>
    obtain ⟨u, he, hrest⟩ := runAll_cons_next.1 hrun
    rw [countAlong_cons_of_next _ he, Nat.add_eq_zero_iff] at noLatch
    obtain ⟨noLatchHere, noLatchRest⟩ := noLatch
    obtain ⟨-, effect⟩ := exec_next_effect he
    have notReady' : u.ready = false := by
      refine Bool.eq_false_of_not_eq_true fun ready => ?_
      have latches : latchesHere i s = true := effect.latches_of_ready_rises notReady ready
      simp [latches] at noLatchHere
    exact ih notReady' hrest noLatchRest

/-- A RESULT read that raises no fault leaves READY at 0 (R101). -/
theorem Effect.ready_eq_false_of_rdResult (effect : Effect .rdResult s t) (hf : t.fault = none) : t.ready = false := by
  cases effect with
  | raise => exact nomatch hf
  | rdResult => rfl
  | rdResultEmpty _ notReady => exact notReady

/-- Settles O28: the read clears READY, and nothing but a latching SERVICE sets it again. -/
theorem consumedResultStaysConsumed : Obligations.ConsumedResultStaysConsumed := by
  intro s u t is _ hread hf hrun noLatch
  exact runAll_ready_eq_false ((exec_next_effect hread).2.ready_eq_false_of_rdResult hf) hrun noLatch

/-- The transaction neither latches, nor delivers, nor discards a result. -/
structure MovesNoResult (i : Instr) (s : State) : Prop where
  noLatch : latchesHere i s = false
  noDelivery : deliversHere i s = false
  noDiscard : discardsHere i s = false

/-- In a state of the invariant a transaction that raises a fault moves no result: an ABORT raises none, and SERVICE and
RD_RESULT raise UNWRITTEN_READ alone. -/
theorem Raises.movesNoResult {code : FaultCode} (cause : Raises i s code) (h : s.Inv) : MovesNoResult i s := by
  cases cause with
  | ctrlReserved _ _ reserved => exact ⟨rfl, rfl, by simp [discardsHere, isAbort, reserved]⟩
  | noneMet _ _ met => exact absurd met h.not_meetsNone
  | _ => exact ⟨rfl, rfl, rfl⟩

/-- What a transaction latches, delivers and discards is what READY before and after it tells (R108). -/
def ResultBalance (i : Instr) (s t : State) : Prop :=
  s.ready.toNat + (latchesHere i s).toNat =
    (deliversHere i s).toNat + (discardsHere i s).toNat + t.ready.toNat

theorem MovesNoResult.balance (h : MovesNoResult i s) (same : t.ready = s.ready) : ResultBalance i s t := by
  obtain ⟨noLatch, noDelivery, noDiscard⟩ := h
  simp [ResultBalance, noLatch, noDelivery, noDiscard, same]

theorem movesNoResult_service (noLatch : ¬ latchesHere .service s = true) : MovesNoResult .service s :=
  ⟨Bool.eq_false_of_not_eq_true noLatch, rfl, rfl⟩

/-- A SERVICE that takes the falling branch latches a width unless one is unread (R83, R85). -/
theorem resultBalance_of_falling (accepted : edgeAccepted s = true) (phase : s.phase = .waitingForFalling)
    (after : t.ready = true) : ResultBalance .service s t := by
  cases ready : s.ready with
  | true => exact (movesNoResult_service (by simp [latchesHere_iff, ready])).balance (after.trans ready.symm)
  | false =>
    have latches : latchesHere .service s = true := latchesHere_iff.2 ⟨rfl, accepted, phase, ready⟩
    rw [ResultBalance, latches, after, ready]
    rfl

/-- A transaction that clears READY delivers or discards the result, if there is one. -/
theorem resultBalance_of_cleared (noLatch : latchesHere i s = false)
    (moved : (deliversHere i s).toNat + (discardsHere i s).toNat = s.ready.toNat) (after : t.ready = false) :
    ResultBalance i s t := by
  rw [ResultBalance, noLatch, moved, after]

theorem Effect.resultBalance (effect : Effect i s t) (h : s.Inv) : ResultBalance i s t := by
  cases effect with
  | raise _ _ _ cause => exact (cause.movesNoResult h).balance rfl
  | serviceFalling _ _ _ accepted _ phase => exact resultBalance_of_falling accepted phase (by simp)
  | serviceIdle _ idle =>
    exact (movesNoResult_service (by simp [latchesHere_iff, edgeAccepted_iff, idle])).balance rfl
  | serviceIgnored _ _ _ ignored => exact (movesNoResult_service (by simp [latchesHere_iff, ignored])).balance rfl
  | serviceRising _ _ _ _ phase => exact (movesNoResult_service (by simp [latchesHere_iff, phase])).balance rfl
  | reset => exact resultBalance_of_cleared rfl (Nat.zero_add _) rfl
  | abort _ _ isAbort => exact resultBalance_of_cleared rfl (by simp [deliversHere, discardsHere, isAbort]) rfl
  | rdResult => exact resultBalance_of_cleared rfl (Nat.add_zero _) rfl
  | rdResultEmpty _ notReady => exact MovesNoResult.balance ⟨rfl, by simp [deliversHere, notReady], rfl⟩ rfl
  | wrCtrlZero _ _ _ notAbort => exact MovesNoResult.balance ⟨rfl, rfl, by simp [discardsHere, notAbort]⟩ rfl
  | tick | capture | rdStatus | rdCtrl | cntClear => exact MovesNoResult.balance ⟨rfl, rfl, rfl⟩ rfl

/-- How many responses of the log have VALID, bit 31, set. -/
def validCount (s : State) : Nat := s.log.countP (fun resp => resp.getLsbD 31)

theorem validCount_logResponse (s : State) (resp : Word) :
    validCount (s.logResponse resp) = validCount s + (resp.getLsbD 31).toNat := by
  rw [validCount, State.logResponse_log, List.countP_append, List.countP_singleton, validCount]
  cases resp.getLsbD 31 <;> rfl

/-- One transaction logs VALID exactly when it delivers a result (R101, R103). -/
theorem Effect.validCount_eq (effect : Effect i s t) (h : s.Inv) :
    validCount t = validCount s + (deliversHere i s).toNat := by
  cases effect with
  | raise _ _ _ cause => rw [(cause.movesNoResult h).noDelivery]; rfl
  | rdResult _ _ ready =>
    rw [validCount_logResponse, getLsbD_resultWord h.params, deliversHere, ready]
    rfl
  | rdResultEmpty _ notReady =>
    rw [validCount_logResponse, getLsbD_resultWord h.params, deliversHere, notReady]
    rfl
  | rdStatus => rw [validCount_logResponse, getLsbD_statusWord s (by decide)]; simp [deliversHere]
  | rdCtrl => rw [validCount_logResponse]; rfl
  | serviceFalling => simp [validCount, deliversHere]
  | _ => rfl

/-- Settles O30, by induction on the run: the balance of each transaction adds up, and the invariant is kept. -/
theorem everyLatchedWidthIsDeliveredAtMostOnce : Obligations.EveryLatchedWidthIsDeliveredAtMostOnce := by
  intro s t is inv hrun
  change _ ∧ validCount t = validCount s + countAlong deliversHere is s
  induction is generalizing s with
  | nil =>
    cases hrun
    simp [countAlong]
  | cons i is ih =>
    obtain ⟨u, he, hrest⟩ := runAll_cons_next.1 hrun
    obtain ⟨-, effect⟩ := exec_next_effect he
    obtain ⟨balanceRest, validRest⟩ := ih u (effect.inv inv) hrest
    have balance : ResultBalance i s u := effect.resultBalance inv
    have valid : validCount u = validCount s + (deliversHere i s).toNat := effect.validCount_eq inv
    simp only [countAlong_cons_of_next _ he]
    unfold ResultBalance at balance
    omega

end Sys2Proof.Machine
end

section
/-! PROOFS. The counter and the duration law (42_timebase.md): O32, O33, O35 to O39.

A measured pulse passes through four stages: the rising edge captured, served (`Risen`), the falling edge captured
(`Fallen`), and served. Each transaction of the pulse takes a stage to the next one or stays in it, so the lemmas
about stages (`Reaches`) give both that a pulse completes and which width it latches. -/

namespace Sys2Proof.Machine

variable {s t u : State} {i : Instr}

/-! ### TICK, CNT_CLEAR and the capture at CNT -/

theorem exec_tick (hf : s.fault = none) : exec .tick s = .next (s.setCnt ((s.cnt + 1) % s.cfg.M)) :=
  whileNoFault_of_none hf _

theorem exec_cntClear (hf : s.fault = none) : exec .cntClear s = .next (s.setCnt 0) :=
  whileNoFault_of_none hf _

/-- Settles O32: from `M - 1`, and always when `M = 1`, the remainder of `CNT + 1` is 0. -/
theorem tickAdvancesTheCounter : Obligations.TickAdvancesTheCounter := by
  refine ⟨spelledBy_encode (i := .tick) rfl, rfl, fun s hf => ?_⟩
  have wraps (zero : (s.cnt + 1) % s.cfg.M = 0) : exec .tick s = .next { s with cnt := 0 } := by
    rw [exec_tick hf, zero]
    rfl
  refine ⟨environment_enabled hf, exec_tick hf, fun last => wraps ?_, fun one => wraps ?_⟩
  · rw [last, Nat.mod_self]
  · rw [one, Nat.mod_one]

/-- Settles O33: the rule for CNT_CLEAR. -/
theorem cntClearZeroesTheCounter : Obligations.CntClearZeroesTheCounter :=
  ⟨spelledBy_encode (i := .cntClear) rfl, rfl, fun _ hf => ⟨environment_enabled hf, exec_cntClear hf⟩⟩

/-- The counter fits the 24 bits of a CAPTURE's tick (R7, R31). -/
theorem toNat_ofNat_cnt (h : s.Inv) : (BitVec.ofNat 24 s.cnt).toNat = s.cnt := by
  have fits : s.cnt < 2 ^ 24 :=
    (tick_fits_register h.params h.cntBelow).trans_le (Nat.pow_le_pow_right Nat.two_pos h.params.wLe)
  rw [BitVec.toNat_ofNat, Nat.mod_eq_of_lt fits]

/-- A capture at CNT raises no fault while nothing is pending: CNT is below `M` (R80, R122). -/
theorem exec_captureAtCnt (h : s.Inv) (hf : s.fault = none) (idle : s.pending = false) (pol : Polarity) :
    exec (captureAtCnt pol s) s = .next ((s.setCapture (some s.cnt) (some pol)).setPending true) := by
  rw [captureAtCnt, exec_capture hf, toNat_ofNat_cnt h, if_neg (Nat.not_le.2 h.cntBelow), if_neg (by simp [idle])]

/-! ### Outcomes with a property -/

/-- The outcome is a next state with the property `P`. -/
def Reaches (k : Result) (P : State → Prop) : Prop := ∃ t, k = .next t ∧ P t

section
variable {P Q : State → Prop} {is js : List Instr}

theorem reaches_of_eq_next {k : Result} (h : k = .next t) (ht : P t) : Reaches k P := ⟨t, h, ht⟩

theorem Reaches.of_next {k : Result} (reaches : Reaches k P) (h : k = .next t) : P t := by
  obtain ⟨v, hv, hP⟩ := reaches
  cases hv.symm.trans h
  exact hP

theorem runAll_cons_reaches (first : Reaches (exec i s) P) (rest : ∀ u, P u → Reaches (runAll is u) Q) :
    Reaches (runAll (i :: is) s) Q := by
  obtain ⟨u, hu, hP⟩ := first
  obtain ⟨t, ht, hQ⟩ := rest u hP
  exact ⟨t, runAll_cons_next.2 ⟨u, hu, ht⟩, hQ⟩

theorem runAll_append_reaches (first : Reaches (runAll is s) P) (rest : ∀ u, P u → Reaches (runAll js u) Q) :
    Reaches (runAll (is ++ js) s) Q := by
  obtain ⟨u, hu, hP⟩ := first
  obtain ⟨t, ht, hQ⟩ := rest u hP
  exact ⟨t, runAll_append_next.2 ⟨u, hu, ht⟩, hQ⟩

/-- A run whose transactions all answer next states with `P` does so too. -/
theorem runAll_reaches_of_kept (kept : ∀ i ∈ is, ∀ s, P s → Reaches (exec i s) P) (h : P s) :
    Reaches (runAll is s) P := by
  induction is generalizing s with
  | nil => exact reaches_of_eq_next rfl h
  | cons i is ih =>
    obtain ⟨first, rest⟩ := List.forall_mem_cons.1 kept
    exact runAll_cons_reaches (first s h) fun u hu => ih rest hu

end

/-! ### The stages of a measured pulse -/

/-- What holds until the falling edge is served: the parameters, no fault and no unread result. -/
structure Unmeasured (c : Config) (s : State) : Prop where
  cfg : s.cfg = c
  noFault : s.fault = none
  notReady : s.ready = false

/-- The edge that PHASE `p` expects is captured at tick `v` and not yet served. -/
structure Captured (c : Config) (p : Phase) (v : Nat) (s : State) : Prop extends Unmeasured c s where
  phase : s.phase = p
  pending : s.pending = true
  captVal : s.captVal = some v
  captPol : s.captPol = some (expectedPolarity p)

/-- The rising edge, captured at tick `r`, is served. -/
structure Risen (c : Config) (r : Nat) (s : State) : Prop extends Unmeasured c s where
  phase : s.phase = .waitingForFalling
  idle : s.pending = false
  rise : s.rise = some r

/-- The falling edge is captured at tick `f`, after a rising edge at tick `r`. -/
structure Fallen (c : Config) (r f : Nat) (s : State) : Prop extends Captured c .waitingForFalling f s where
  rise : s.rise = some r

/-- Between the two captures the rising edge waits for its SERVICE or is served. -/
def BetweenEdges (c : Config) (r : Nat) (s : State) : Prop := Captured c .waitingForRising r s ∨ Risen c r s

/-- The pulse's end: the width `w` is to be read, and the engine waits for a rising edge again. -/
structure Measured (w : Nat) (s : State) : Prop where
  noFault : s.fault = none
  ready : s.ready = true
  phase : s.phase = .waitingForRising
  width : s.width = some w

section
variable {c : Config} {p : Phase} {r f v : Nat} {P : State → Prop}

theorem BetweenEdges.unmeasured (h : BetweenEdges c r s) : Unmeasured c s := by
  obtain waiting | risen := h
  · exact waiting.toUnmeasured
  · exact risen.toUnmeasured

/-! ### Transactions that leave the block alone -/

/-- The state with CNT, the log and the count of draws changed: all that the transactions inside a pulse, but for the
engine's, can change. -/
def State.withOutside (s : State) (n : Nat) (log : List Word) (draws : Nat) : State :=
  { s with cnt := n, log := log, draws := draws }

theorem Captured.withOutside (h : Captured c p v s) (n : Nat) (log : List Word) (draws : Nat) :
    Captured c p v (s.withOutside n log draws) := { h with }

theorem Risen.withOutside (h : Risen c r s) (n : Nat) (log : List Word) (draws : Nat) :
    Risen c r (s.withOutside n log draws) := { h with }

theorem Fallen.withOutside (h : Fallen c r f s) (n : Nat) (log : List Word) (draws : Nat) :
    Fallen c r f (s.withOutside n log draws) := { h with }

theorem BetweenEdges.withOutside (h : BetweenEdges c r s) (n : Nat) (log : List Word) (draws : Nat) :
    BetweenEdges c r (s.withOutside n log draws) :=
  h.imp (·.withOutside n log draws) (·.withOutside n log draws)

theorem exec_wrCtrl_zero (hf : s.fault = none) : exec (.wrCtrl 0#16) s = .next s := by
  rw [exec_wrCtrl hf, if_neg (by decide), if_neg (by decide)]

/-- What CNT, the log and the count of draws do not matter for, a quiet transaction keeps (R124). -/
theorem exec_quiet_reaches (h : Unmeasured c s) (hi : quiet i = true)
    (kept : ∀ n log draws, P (s.withOutside n log draws)) : Reaches (exec i s) P := by
  have hf := h.noFault
  cases i with
  | tick => exact reaches_of_eq_next (exec_tick hf) (kept _ s.log s.draws)
  | rdStatus => exact reaches_of_eq_next (whileNoFault_of_none hf _) (kept s.cnt _ s.draws)
  | rdResult => exact reaches_of_eq_next (exec_rdResult_of_not_ready hf h.notReady) (kept s.cnt _ _)
  | rdCtrl => exact reaches_of_eq_next (whileNoFault_of_none hf _) (kept s.cnt _ s.draws)
  | wrCtrl data =>
    obtain rfl : data = 0#16 := beq_iff_eq.1 hi
    exact reaches_of_eq_next (exec_wrCtrl_zero hf) (kept s.cnt s.log s.draws)
  | _ => exact nomatch hi

/-- Inside a pulse every transaction but the engine's leaves the block alone (R124, R128). -/
theorem exec_insidePulse_reaches (h : Unmeasured c s) (hi : insidePulse i = true)
    (service : i = .service → Reaches (exec i s) P) (kept : ∀ n log draws, P (s.withOutside n log draws)) :
    Reaches (exec i s) P := by
  have which : (quiet i = true ∨ i = .service) ∨ i = .cntClear := by simpa [insidePulse] using hi
  obtain (isQuiet | isService) | rfl := which
  · exact exec_quiet_reaches h isQuiet kept
  · exact service isService
  · exact reaches_of_eq_next (exec_cntClear h.noFault) (kept 0 s.log s.draws)

/-! ### From stage to stage -/

/-- The first capture of a pulse, at an armed block (R159). -/
theorem captureRising_reaches (h : s.Inv) (hf : s.fault = none) (armed : Armed s) (notReady : s.ready = false) :
    Reaches (exec (captureAtCnt .rising s) s) (Captured s.cfg .waitingForRising s.cnt) :=
  reaches_of_eq_next (exec_captureAtCnt h hf armed.idle .rising)
    { cfg := rfl, noFault := hf, notReady := notReady, phase := armed.rising, pending := rfl, captVal := rfl,
      captPol := rfl }

theorem Risen.captureFalling_reaches (risen : Risen c r s) (h : s.Inv) :
    Reaches (exec (captureAtCnt .falling s) s) (Fallen c r s.cnt) :=
  reaches_of_eq_next (exec_captureAtCnt h risen.noFault risen.idle .falling)
    { risen with pending := rfl, captVal := rfl, captPol := rfl }

/-- The edge that PHASE expects is accepted under both values of SEQ_CHECK (R84). -/
theorem Captured.exec_service (h : Captured c p v s) : exec .service s = acceptEdge v s := by
  have accepted : edgeAccepted s = true := edgeAccepted_iff.2 ⟨h.pending, fun _ => h.phase ▸ h.captPol⟩
  exact exec_service_of_accepted h.noFault accepted h.captVal

theorem Captured.serviceRising_reaches (h : Captured c .waitingForRising r s) :
    Reaches (exec .service s) (Risen c r) :=
  reaches_of_eq_next (h.exec_service.trans (acceptEdge_of_rising h.phase r))
    { h with phase := rfl, idle := rfl, rise := rfl }

theorem Fallen.service_reaches (h : Fallen c r f s) :
    Reaches (exec .service s) (Measured (computeWidth r f c.M)) := by
  refine reaches_of_eq_next (h.exec_service.trans (acceptEdge_of_falling h.phase h.rise f)) ?_
  exact { noFault := by simp [h.noFault], ready := by simp, phase := rfl, width := by simp [h.notReady, h.cfg] }

/-- A further SERVICE inside the pulse finds nothing pending. -/
theorem Risen.service_reaches (h : Risen c r s) : Reaches (exec .service s) (Risen c r) :=
  reaches_of_eq_next (exec_service_of_idle h.noFault h.idle) h

theorem BetweenEdges.service_reaches (h : BetweenEdges c r s) : Reaches (exec .service s) (Risen c r) := by
  obtain waiting | risen := h
  · exact waiting.serviceRising_reaches
  · exact risen.service_reaches

theorem Risen.kept (h : Risen c r s) (hi : insidePulse i = true) : Reaches (exec i s) (Risen c r) :=
  exec_insidePulse_reaches h.toUnmeasured hi (fun isService => isService ▸ h.service_reaches) h.withOutside

theorem BetweenEdges.kept (h : BetweenEdges c r s) (hi : insidePulse i = true) :
    Reaches (exec i s) (BetweenEdges c r) := by
  refine exec_insidePulse_reaches h.unmeasured hi ?_ h.withOutside
  rintro rfl
  obtain ⟨t, ht, risen⟩ := h.service_reaches
  exact reaches_of_eq_next ht (.inr risen)

/-- The part of a pulse between its captures: the first SERVICE in it serves the rising edge. -/
theorem BetweenEdges.runAll_reaches_risen {seg : List Instr} (h : BetweenEdges c r s)
    (inside : seg.all insidePulse = true) (served : Instr.service ∈ seg) : Reaches (runAll seg s) (Risen c r) := by
  obtain ⟨before, after, rfl⟩ := List.append_of_mem served
  have insideOf : ∀ i ∈ before ++ .service :: after, insidePulse i = true := List.all_eq_true.1 inside
  obtain ⟨insideBefore, insideFrom⟩ := List.forall_mem_append.1 insideOf
  obtain ⟨-, insideAfter⟩ := List.forall_mem_cons.1 insideFrom
  refine runAll_append_reaches (runAll_reaches_of_kept (fun i hi u hu => hu.kept (insideBefore i hi)) h) fun u hu => ?_
  refine runAll_cons_reaches hu.service_reaches fun v risen => ?_
  exact runAll_reaches_of_kept (fun i hi w hw => hw.kept (insideAfter i hi)) risen

theorem runAll_rising_reaches {seg : List Instr} (h : s.Inv) (hf : s.fault = none) (armed : Armed s)
    (notReady : s.ready = false) (inside : seg.all insidePulse = true) (served : Instr.service ∈ seg) :
    Reaches (runAll (captureAtCnt .rising s :: seg) s) (Risen s.cfg s.cnt) :=
  runAll_cons_reaches (captureRising_reaches h hf armed notReady) fun _ captured =>
    BetweenEdges.runAll_reaches_risen (.inl captured) inside served

theorem Risen.runAll_falling_reaches {rest : List Instr} (risen : Risen c r s) (h : s.Inv)
    (restQuiet : rest.all quiet = true) :
    Reaches (runAll (captureAtCnt .falling s :: (rest ++ [.service])) s) (Measured (computeWidth r s.cnt c.M)) := by
  refine runAll_cons_reaches (risen.captureFalling_reaches h) fun u fallen => ?_
  have quietKeeps : ∀ i ∈ rest, ∀ v, Fallen c r s.cnt v → Reaches (exec i v) (Fallen c r s.cnt) :=
    fun i hi v hv => exec_quiet_reaches hv.toUnmeasured (List.all_eq_true.1 restQuiet i hi) hv.withOutside
  refine runAll_append_reaches (runAll_reaches_of_kept quietKeeps fallen) fun v hv => ?_
  rw [runAll_singleton]
  exact hv.service_reaches

end

/-- Settles O36: each half of the pulse reaches its stage, and the invariant bounds the falling edge's tick. -/
theorem measuredPulseCompletes : Obligations.MeasuredPulseCompletes := by
  intro s seg rest inv hf armed notReady inside served restQuiet
  obtain ⟨u, rising, risen⟩ := runAll_rising_reaches inv hf armed notReady inside served
  obtain ⟨t, falling, -⟩ := risen.runAll_falling_reaches (runAll_inv inv rising) restQuiet
  exact ⟨u, t, inv, hf, armed, notReady, inside, served, restQuiet, rising, falling⟩

/-! ### The width of a measured pulse -/

section
variable {seg rest : List Instr}

/-- A pulse latches the width of the counter's values at its two captures, whatever the counter did (R86, R122). -/
theorem MeasuredPulse.measured (h : MeasuredPulse s seg rest u t) :
    Measured (computeWidth s.cnt u.cnt s.cfg.M) t := by
  have risen : Risen s.cfg s.cnt u :=
    (runAll_rising_reaches h.inv h.noFault h.armed h.noResult h.segInside h.segServed).of_next h.rising
  exact (risen.runAll_falling_reaches (runAll_inv h.inv h.rising) h.restQuiet).of_next h.falling

theorem tickCount_captureAtCnt (pol : Polarity) (s : State) (is : List Instr) :
    tickCount (captureAtCnt pol s :: is) = tickCount is := by
  have noTick : captureAtCnt pol s ≠ .tick := nofun
  exact List.count_cons_of_ne noTick

theorem not_mem_captureAtCnt_cons (noClear : .cntClear ∉ seg) (pol : Polarity) (s : State) :
    .cntClear ∉ captureAtCnt pol s :: seg :=
  List.not_mem_cons_of_ne_of_not_mem nofun noClear

theorem MeasuredPulse.cnt_falling (h : MeasuredPulse s seg rest u t) (noClear : .cntClear ∉ seg) :
    u.cnt = (s.cnt + tickCount seg) % s.cfg.M := by
  rw [← tickCount_captureAtCnt .rising s seg]
  exact counterMovesByTheTicksOfTheRun s u _ h.inv.cntBelow (not_mem_captureAtCnt_cons noClear .rising s) h.rising

/-- The start of the pulse cancels out of the width (R87, R124). -/
theorem computeWidth_advance {r D M : Nat} (hr : r < M) : computeWidth r ((r + D) % M) M = D % M := by
  have advanced : (r + D) % M < M := Nat.mod_lt _ (Nat.zero_lt_of_lt hr)
  have width : (computeWidth r ((r + D) % M) M : Int) = D % M := by
    rw [computeWidth_eq_emod hr advanced, Int.natCast_emod, Int.emod_sub_emod, Nat.cast_add, add_sub_cancel_left]
  exact_mod_cast width

theorem MeasuredPulse.width_eq (h : MeasuredPulse s seg rest u t) (noClear : .cntClear ∉ seg) :
    t.width = some (tickCount seg % s.cfg.M) := by
  rw [h.measured.width, h.cnt_falling noClear, computeWidth_advance h.inv.cntBelow]

/-- Settles O35: the falling capture carries `(r + D) mod M`, and `r` cancels out of the width. -/
theorem measuredWidthIsTheDurationModM : Obligations.MeasuredWidthIsTheDurationModM :=
  fun _ _ _ _ _ h noClear =>
    ⟨h.cnt_falling noClear, h.measured.noFault, h.measured.ready, h.measured.phase, h.width_eq noClear⟩

/-- R125. -/
theorem MeasuredPulse.width_eq_tickCount_iff (h : MeasuredPulse s seg rest u t) (noClear : .cntClear ∉ seg) :
    t.width = some (tickCount seg) ↔ tickCount seg < s.cfg.M := by
  rw [h.width_eq noClear, Option.some_inj, Nat.mod_eq_iff_lt (Nat.ne_of_gt h.inv.params.oneLeM)]

/-- Exactly one `M` is lost when the quotient is 1 (R126). -/
theorem eq_mod_add_self_iff {D M : Nat} (hM : 0 < M) (h : M ≤ D) : D = D % M + M ↔ D < 2 * M := by
  have quotient : 1 ≤ D / M := (Nat.one_le_div_iff hM).2 h
  calc D = D % M + M
    _ ↔ D / M * M = 1 * M := by have := Nat.div_add_mod' D M; omega
    _ ↔ D / M < 2 := by rw [Nat.mul_left_inj hM.ne']; omega
    _ ↔ D < 2 * M := Nat.div_lt_iff_lt_mul hM

/-- Settles O37: the clauses are those of `D = D / M * M + D % M`. -/
theorem widthIsTheDurationExactlyBelowM : Obligations.WidthIsTheDurationExactlyBelowM := by
  rintro s u t seg rest _ h noClear rfl
  have hM : 0 < s.cfg.M := h.inv.params.oneLeM
  refine ⟨h.width_eq_tickCount_iff noClear, fun long => ⟨_, h.width_eq noClear, ?_, ?_, ?_⟩, fun multiple => ?_⟩
  · exact (Nat.mod_add_div' _ _).symm
  · exact (Nat.one_le_div_iff hM).2 long
  · exact eq_mod_add_self_iff hM long
  · rw [h.width_eq noClear, multiple]

/-! ### Wraps -/

/-- One transaction that is no CNT_CLEAR wraps the counter when its TICK reaches `M` (R120). -/
theorem wrapsHere_toNat (hcnt : s.cnt < s.cfg.M) : (wrapsHere i s).toNat = (s.cnt + tickCount [i]) / s.cfg.M := by
  by_cases tick : i = .tick
  · subst tick
    have one : tickCount [.tick] = 1 := rfl
    rw [one]
    by_cases last : s.cnt + 1 = s.cfg.M
    · rw [last, Nat.div_self (Nat.zero_lt_of_lt hcnt)]
      simp [wrapsHere, last]
    · rw [Nat.div_eq_of_lt (by omega)]
      simp [wrapsHere, last]
  · have noTick : tickCount [i] = 0 := by simp [tickCount, tick]
    rw [noTick, Nat.add_zero, Nat.div_eq_of_lt hcnt]
    simp [wrapsHere, tick]

/-- The wraps of two parts of a run add up. -/
theorem div_add_mod_add_div {a b M : Nat} (hM : 0 < M) : a / M + (a % M + b) / M = (a + b) / M := by
  have parts : a + b = M * (a / M) + (a % M + b) := by rw [← Nat.add_assoc, Nat.div_add_mod]
  rw [parts, Nat.mul_add_div hM]

/-- R127: the counter wraps once for every `M` that its value and the TICKs of the run add up to. -/
theorem countAlong_wrapsHere {is : List Instr} (h : s.Inv) (noClear : .cntClear ∉ is)
    (hrun : runAll is s = .next t) : countAlong wrapsHere is s = (s.cnt + tickCount is) / s.cfg.M := by
  induction is generalizing s with
  | nil =>
    cases hrun
    exact (Nat.div_eq_of_lt h.cntBelow).symm
  | cons i is ih =>
    obtain ⟨u, he, hrest⟩ := runAll_cons_next.1 hrun
    obtain ⟨notClear, clearRest⟩ := List.ne_and_not_mem_of_not_mem_cons noClear
    have cfg : u.cfg = s.cfg := (exec_next_effect he).2.cfg_eq
    have moved : u.cnt = (s.cnt + tickCount [i]) % s.cfg.M := exec_cnt h.cntBelow notClear.symm he
    calc countAlong wrapsHere (i :: is) s
      _ = (wrapsHere i s).toNat + countAlong wrapsHere is u := countAlong_cons_of_next _ he
      _ = (s.cnt + tickCount [i]) / s.cfg.M + ((s.cnt + tickCount [i]) % s.cfg.M + tickCount is) / s.cfg.M := by
        rw [wrapsHere_toNat h.cntBelow, ih (exec_inv h he) clearRest hrest, moved, cfg]
      _ = (s.cnt + tickCount (i :: is)) / s.cfg.M := by
        rw [div_add_mod_add_div h.params.oneLeM, tickCount_cons i is, Nat.add_assoc]

theorem MeasuredPulse.wraps (h : MeasuredPulse s seg rest u t) (noClear : .cntClear ∉ seg) :
    countAlong wrapsHere (captureAtCnt .rising s :: seg) s = (s.cnt + tickCount seg) / s.cfg.M := by
  rw [← tickCount_captureAtCnt .rising s seg]
  exact countAlong_wrapsHere h.inv (not_mem_captureAtCnt_cons noClear .rising s) h.rising

/-- An armed block with `M = 2` and CNT = 0: a pulse of two TICKs wraps its counter once and measures 0. -/
def armedModTwo : State := State.start { M := 2, W := 1, seqCheck := true, base := 0, irqRouting := default } 0

theorem armedModTwo_inv : armedModTwo.Inv := State.start_inv ⟨by decide, by decide, by decide, by decide⟩ (by decide)

/-- Settles O38: a correct width is below `M`, as CNT is, so their sum holds `M` at most once; the pulse of two TICKs
from `armedModTwo` has one wrap and a wrong width. -/
theorem oneWrapDoesNotMakeAWidthCorrect : Obligations.OneWrapDoesNotMakeAWidthCorrect := by
  refine ⟨fun s u t seg rest h noClear => ⟨h.wraps noClear, fun correct => ?_⟩, ?_⟩
  · have short : tickCount seg < s.cfg.M := (h.width_eq_tickCount_iff noClear).1 correct
    have start : s.cnt < s.cfg.M := h.inv.cntBelow
    rw [h.wraps noClear]
    exact Nat.le_of_lt_succ (Nat.div_lt_of_lt_mul (by omega))
  · obtain ⟨u, t, h⟩ := measuredPulseCompletes armedModTwo [.service, .tick, .tick] [] armedModTwo_inv rfl
      ⟨rfl, rfl⟩ rfl (by decide) (by decide) (by decide)
    have noClear : .cntClear ∉ [Instr.service, .tick, .tick] := by decide
    refine ⟨_, u, t, _, _, h, noClear, (h.wraps noClear).trans rfl, fun correct => ?_⟩
    exact absurd ((h.width_eq_tickCount_iff noClear).1 correct) (by decide)

/-! ### A clear inside the pulse -/

theorem runAll_cfg {is : List Instr} (hrun : runAll is s = .next t) : t.cfg = s.cfg :=
  runAll_keeps (P := fun u => u.cfg = s.cfg)
    (fun _ _ _ _ same he => (exec_next_effect he).2.cfg_eq.trans same) rfl hrun

theorem exec_cntClear_cnt (he : exec .cntClear s = .next t) : t.cnt = 0 := by
  obtain ⟨-, next⟩ := whileNoFault_next.1 he
  cases next
  rfl

/-- After a run's last CNT_CLEAR the counter starts again from 0 (R121, R128). -/
theorem runAll_cnt_after_clear {before after : List Instr} (h : s.Inv) (noClear : .cntClear ∉ after)
    (hrun : runAll (before ++ .cntClear :: after) s = .next t) : t.cnt = tickCount after % s.cfg.M := by
  obtain ⟨u, hbefore, hfrom⟩ := runAll_append_next.1 hrun
  obtain ⟨v, hclear, hafter⟩ := runAll_cons_next.1 hfrom
  have inv : v.Inv := exec_inv (runAll_inv h hbefore) hclear
  have cfg : v.cfg = s.cfg := (exec_next_effect hclear).2.cfg_eq.trans (runAll_cfg hbefore)
  rw [counterMovesByTheTicksOfTheRun v t after inv.cntBelow noClear hafter, exec_cntClear_cnt hclear, cfg, Nat.zero_add]

/-- Settles O39: the width is that of the counter's values, and the last clear fixes the second one. -/
theorem widthCountsOnlyTicksAfterTheLastClear : Obligations.WidthCountsOnlyTicksAfterTheLastClear := by
  intro s u t before after rest h noClear
  have cnt : u.cnt = tickCount after % s.cfg.M :=
    runAll_cnt_after_clear (before := captureAtCnt .rising s :: before) h.inv noClear h.rising
  exact ⟨cnt, cnt ▸ h.measured.width⟩

end

end Sys2Proof.Machine
end

section
/-! PROOFS. Faults, the interrupt request, the two orders of SERVICE and RD_RESULT, and the host's conversion
(60_exceptions.md): O31, O42, O43, O46, O47. -/

namespace Sys2Proof.Machine

variable {s t : State} {i : Instr}

/-! ### Raising a fault -/

/-- Settles O42: FAULT was *none* before, so a transaction that leaves it set has raised a fault. -/
theorem raisingAFaultChangesNothingElse : Obligations.RaisingAFaultChangesNothingElse := by
  intro i s t h faulted
  obtain ⟨hf, effect⟩ := exec_next_effect h
  obtain same | ⟨code, -, raised⟩ := effect.fault_eq_or_raises
  · exact absurd (same.trans hf) faulted
  · exact ⟨code, raised⟩

/-- Settles O43: a fault that is raised meets its condition, and the effects that raise none exclude every condition. -/
theorem faultsExactlyOnTheirConditions : Obligations.FaultsExactlyOnTheirConditions := by
  intro i s t inv h
  obtain ⟨hf, effect⟩ := exec_next_effect h
  cases effect with
  | raise _ _ code cause =>
    cases cause with
    | tickRange _ _ _ range => exact (if_pos range).symm
    | edgeOverrun _ _ _ below pending => exact ((if_neg (Nat.not_le.2 below)).trans (if_pos pending)).symm
    | rdMisaligned _ off odd | wrMisaligned _ off _ odd => exact (if_pos ((misaligned_iff off).1 odd)).symm
    | rdReserved _ off even | wrReserved _ off _ even =>
      exact (if_neg fun odd => by simp [(misaligned_iff off).2 odd] at even).symm
    | wrStatus | wrResult => rfl
    | ctrlReserved _ data reserved => exact (if_pos ((ctrlReservedSet_iff data).1 reserved)).symm
    | noneMet _ _ met => exact absurd met inv.not_meetsNone
  | capture _ _ _ below free => simp [hf, free, Nat.not_le.2 below]
  | abort _ data isAbort =>
    obtain rfl : data = 1#16 := by simpa using (isAbort_iff _).1 isAbort
    simp [hf]
  | wrCtrlZero _ data clear =>
    have below : ¬ 2 ≤ data.toNat := fun reserved => by simp [(ctrlReservedSet_iff data).2 reserved] at clear
    simp [hf, below]
  | _ => simp [hf]

/-- In a state of the invariant SERVICE completes: it meets no *none* value. -/
theorem State.Inv.service_completes (inv : s.Inv) (hf : s.fault = none) :
    ∃ t, exec .service s = .next t ∧ t.fault = none := by
  obtain ⟨t, serve⟩ := answers_exec .service hf
  exact ⟨t, serve, Option.map_eq_none_iff.1 (faultsExactlyOnTheirConditions _ s t inv serve)⟩

/-! ### The interrupt request -/

/-- CAPTURE alone raises PENDING (R80, R146). -/
theorem Effect.pending_rises_iff (effect : Effect i s t) (hf : t.fault = none) (idle : s.pending = false) :
    t.pending = true ↔ i.kind = .capture := by
  cases effect with
  | raise => exact nomatch hf
  | capture => exact iff_of_true rfl rfl
  | serviceRising | serviceFalling => simp [Instr.kind]
  | _ => simp [idle, Instr.kind]

/-- SERVICE, ABORT and RESET alone clear PENDING (R81, R104, R170); a CAPTURE over it would have raised a fault. -/
theorem Effect.pending_falls_iff (effect : Effect i s t) (hf : t.fault = none) (pending : s.pending = true) :
    t.pending = false ↔ i = .service ∨ isAbort i = true ∨ i = .reset := by
  cases effect with
  | raise => exact nomatch hf
  | capture _ _ _ _ free => exact nomatch free.symm.trans pending
  | serviceIdle _ idle => exact nomatch idle.symm.trans pending
  | reset => exact iff_of_true rfl (.inr (.inr rfl))
  | abort _ _ isAbort => exact iff_of_true rfl (.inr (.inl isAbort))
  | serviceIgnored | serviceRising | serviceFalling => simp
  | wrCtrlZero _ _ _ notAbort => simp [pending, notAbort]
  | _ => simp [pending, isAbort]

/-- Settles O46: IRQ is PENDING, and each direction of its change has a rule above. -/
theorem irqFollowsThePendingCapture : Obligations.IrqFollowsThePendingCapture := by
  refine ⟨fun _ => rfl, fun i s t h hf => ?_⟩
  obtain ⟨-, effect⟩ := exec_next_effect h
  exact ⟨effect.pending_rises_iff hf, effect.pending_falls_iff hf⟩

/-! ### The two orders of SERVICE and RD_RESULT

SERVICE keeps the unread result (R85) and the read keeps everything that SERVICE reads but READY. -/

/-- The other value of PHASE. -/
def Phase.other : Phase → Phase
  | .waitingForRising => .waitingForFalling
  | .waitingForFalling => .waitingForRising

/-- SERVICE toggles PHASE on an accepted edge, whatever READY is (R81, R90). -/
theorem Effect.service_phase (effect : Effect .service s t) (hf : t.fault = none) :
    t.phase = if edgeAccepted s then s.phase.other else s.phase := by
  cases effect with
  | raise => exact nomatch hf
  | serviceIdle _ idle => simp [edgeAccepted, idle]
  | serviceIgnored _ _ _ ignored => simp [ignored]
  | serviceRising _ _ accepted _ phase | serviceFalling _ _ _ accepted _ phase => simp [accepted, phase, Phase.other]

/-- The read of an unread result answers VALID = 1 with its width (R101). -/
theorem HoldsResult.exec_rdResult {w : Nat} (held : HoldsResult w s) (inv : s.Inv) (hf : s.fault = none) :
    exec .rdResult s = .next ((s.setReady false).logResponse (0x80000000#32 ||| BitVec.ofNat 32 w)) := by
  rw [exec_rdResult_of_ready hf held.ready held.width, resultWord_valid inv.params (inv.widthBelow w held.width)]

/-- Settles O31: SERVICE appends nothing to the log, and takes PHASE to the same value before and after the read. -/
theorem serviceAndReadResultBothOrdersAnswerTheResult :
    Obligations.ServiceAndReadResultBothOrdersAnswerTheResult := by
  intro s w inv hf ready width
  have held : HoldsResult w s := ⟨ready, width⟩
  have serviceLog {c d : State} (serve : exec .service c = .next d) : d.log = c.log :=
    (onlyCompletedReadsAppendToTheLog _ c d serve).2 (.inl rfl)
  obtain ⟨a, serveFirst, hfa⟩ := inv.service_completes hf
  obtain ⟨-, effectFirst⟩ := exec_next_effect serveFirst
  have readSecond := (effectFirst.holdsResult nofun nofun rfl held).exec_rdResult (effectFirst.inv inv) hfa
  have readFirst := held.exec_rdResult inv hf
  obtain ⟨u, serveSecond, hfu⟩ := (exec_inv inv readFirst).service_completes hf
  obtain ⟨-, effectSecond⟩ := exec_next_effect serveSecond
  refine ⟨_, u, runAll_cons_next.2 ⟨a, serveFirst, runAll_singleton.trans readSecond⟩,
    runAll_cons_next.2 ⟨_, readFirst, runAll_singleton.trans serveSecond⟩, hfa, hfu, ?_, ?_, ?_⟩
  · rw [State.logResponse_log, State.setReady_log, serviceLog serveFirst]
  · rw [serviceLog serveSecond, State.logResponse_log, State.logResponse_log, State.setReady_log, State.setReady_log,
      serviceLog serveFirst]
  · exact (effectFirst.service_phase hfa).trans (effectSecond.service_phase hfu).symm

/-! ### The host's conversion -/

/-- At 343 m/s and 2667 ns a tick, each tick of width adds 914781 to the product (R162). -/
theorem speedProduct_source (w : Nat) : speedProduct 343 2667 w = 914781 * w := by
  unfold speedProduct widthNanoseconds
  omega

/-- Settles O47: the thresholds are those of a linear product, 2347 * 914781 < 2^31 ≤ 2348 * 914781 and
4695 * 914781 < 2^32 ≤ 4696 * 914781. -/
theorem hostConversionAndItsOverflow : Obligations.HostConversionAndItsOverflow := by
  refine ⟨rfl, ?_, fun w => ?_, fun w => ?_, fun w hw => ?_⟩
  · norm_num [distanceCm, speedProduct_source]
  all_goals
    rw [speedProduct_source]
    omega

end Sys2Proof.Machine
end

section
/-! PROOFS. Reset, the contracts, runs and their fairness (70_reset_and_hazards.md): O40, O44, O45, O48 to O51, O59,
O60. -/

namespace Sys2Proof.Machine

variable {s s' t u v w : State} {i : Instr} {is : List Instr}

/-! ### Runs that keep the contract -/

/-- The contract keeps out the cause of every fault but UNWRITTEN_READ, and the invariant that one (R176, R158, R36). -/
theorem not_raises_of_keepsContract {code : FaultCode} (inv : s.Inv)
    (keeps : keepsContract s.cfg.M s.pending (i :: is) = true) : ¬ Raises i s code := by
  intro cause
  cases cause with
  | tickRange _ _ _ range => simp [keepsContract, tickOperand, Nat.not_lt.2 range] at keeps
  | edgeOverrun _ _ _ _ pending => simp [keepsContract, pending] at keeps
  | rdMisaligned | rdReserved | wrMisaligned | wrReserved | wrStatus | wrResult => exact nomatch keeps
  | ctrlReserved _ _ reserved => simp [keepsContract, reserved] at keeps
  | noneMet _ _ met => exact inv.not_meetsNone met

/-- The Bool that `keepsContract` carries along the run is PENDING. -/
theorem Effect.keepsContract_rest (effect : Effect i s t) (inv : s.Inv)
    (keeps : keepsContract s.cfg.M s.pending (i :: is) = true) : keepsContract s.cfg.M t.pending is = true := by
  cases effect with
  | raise _ _ _ cause => exact absurd cause (not_raises_of_keepsContract inv keeps)
  | capture => exact (Bool.and_eq_true_iff.1 keeps).2
  | serviceIdle _ idle => exact idle ▸ keeps
  | abort _ _ aborts =>
    simp only [isAbort, Bool.and_eq_true, Bool.not_eq_true'] at aborts
    simpa [keepsContract, aborts] using keeps
  | wrCtrlZero _ _ clear notAbort =>
    simp only [isAbort, clear, Bool.not_false, Bool.true_and] at notAbort
    simpa [keepsContract, clear, notAbort] using keeps
  | serviceFalling => simpa [keepsContract] using keeps
  | _ => exact keeps

theorem Effect.fault_eq_none_of_keepsContract (effect : Effect i s t) (inv : s.Inv) (hf : s.fault = none)
    (keeps : keepsContract s.cfg.M s.pending (i :: is) = true) : t.fault = none := by
  obtain same | ⟨code, cause, -⟩ := effect.fault_eq_or_raises
  · exact same.trans hf
  · exact absurd cause (not_raises_of_keepsContract inv keeps)

/-- Settles O45, by induction on the run: its first transaction answers without a fault and leaves a state from which
the rest keeps the contract. -/
theorem contractKeepingRunsNeverFault : Obligations.ContractKeepingRunsNeverFault := by
  intro is
  induction is with
  | nil => exact fun s inv hf _ => ⟨s, rfl, hf, inv⟩
  | cons i is ih =>
    intro s inv hf keeps
    obtain ⟨u, he⟩ := answers_exec i hf
    obtain ⟨-, effect⟩ := exec_next_effect he
    have keepsRest : keepsContract u.cfg.M u.pending is = true :=
      effect.cfg_eq ▸ effect.keepsContract_rest inv keeps
    obtain ⟨t, hrun, ht⟩ := ih u (effect.inv inv) (effect.fault_eq_none_of_keepsContract inv hf keeps) keepsRest
    exact ⟨t, runAll_cons_next.2 ⟨u, he, hrun⟩, ht⟩

/-! ### Registers that cannot be observed

Two outcomes from indistinguishable states are compared as the operations build them: a register is read only under the
flag that makes the two states agree on it (R36). -/

/-- Where the first outcome is a next state, the second is one that cannot be told apart from it. -/
def Matches (k k' : Result) : Prop := ∀ t, k = .next t → Reaches k' (SameObservable t)

theorem matches_next (same : SameObservable t u) : Matches (.next t) (.next u) := by
  rintro _ ⟨⟩
  exact reaches_of_eq_next rfl same

theorem matches_ite {c c' : Prop} [Decidable c] [Decidable c'] {k k' l l' : Result} (hc : c ↔ c')
    (hk : c → Matches k k') (hl : ¬ c → Matches l l') : Matches (if c then k else l) (if c' then k' else l') := by
  by_cases h : c
  · rw [if_pos h, if_pos (hc.1 h)]
    exact hk h
  · rw [if_neg h, if_neg fun h' => h (hc.2 h')]
    exact hl h

namespace SameObservable

theorem setPending_false (same : SameObservable s s') : SameObservable (s.setPending false) (s'.setPending false) :=
  { same with pending := rfl, captVal := nofun, captPol := nofun }

theorem setReady_false (same : SameObservable s s') : SameObservable (s.setReady false) (s'.setReady false) :=
  { same with ready := rfl, width := nofun }

theorem setPhase_rising (same : SameObservable s s') :
    SameObservable (s.setPhase .waitingForRising) (s'.setPhase .waitingForRising) :=
  { same with phase := rfl, rise := nofun }

theorem setCnt (same : SameObservable s s') (n : Nat) : SameObservable (s.setCnt n) (s'.setCnt n) :=
  { same with cnt := rfl }

theorem countDraw (same : SameObservable s s') : SameObservable s.countDraw s'.countDraw :=
  { same with draws := congrArg (· + 1) same.draws }

theorem logResponse (same : SameObservable s s') (resp : Word) :
    SameObservable (s.logResponse resp) (s'.logResponse resp) :=
  { same with log := congrArg (· ++ [resp]) same.log }

theorem capture (same : SameObservable s s') (n : Nat) (pol : Polarity) :
    SameObservable ((s.setCapture (some n) (some pol)).setPending true)
      ((s'.setCapture (some n) (some pol)).setPending true) :=
  { same with pending := rfl, captVal := fun _ => rfl, captPol := fun _ => rfl }

theorem startPulse (same : SameObservable s s') (n : Nat) :
    SameObservable ((s.setRise (some n)).setPhase .waitingForFalling)
      ((s'.setRise (some n)).setPhase .waitingForFalling) :=
  { same with phase := rfl, rise := fun _ => rfl }

theorem latchWidth (same : SameObservable s s') (n : Nat) :
    SameObservable (s.latchWidth n) (s'.latchWidth n) := by
  cases ready : s.ready with
  | true =>
    rw [State.latchWidth_of_ready ready, State.latchWidth_of_ready (same.ready ▸ ready)]
    exact same
  | false =>
    rw [State.latchWidth_of_not_ready ready, State.latchWidth_of_not_ready (same.ready ▸ ready)]
    exact { same with ready := rfl, width := fun _ => rfl }

theorem abort (same : SameObservable s s') : SameObservable s.abort s'.abort :=
  same.setPhase_rising.setReady_false.setPending_false

theorem resetBlock (same : SameObservable s s') : SameObservable s.resetBlock s'.resetBlock :=
  { same.abort with rise := nofun, width := nofun, captVal := nofun, captPol := nofun }

/-- What RESET clears beyond an ABORT is not observed (R170). -/
theorem resetBlock_abort (s : State) : SameObservable s.resetBlock s.abort where
  cfg := rfl
  phase := rfl
  ready := rfl
  pending := rfl
  fault := rfl
  refused := rfl
  log := rfl
  cnt := rfl
  draws := rfl
  script := rfl
  rise := nofun
  width := nofun
  captVal := nofun
  captPol := nofun

theorem statusWord_eq (same : SameObservable s s') : statusWord s = statusWord s' := by
  rw [statusWord, statusWord, same.pending, same.phase, same.ready]

theorem matches_whileNoFault {k k' : Result} (same : SameObservable s s') (hk : Matches k k') :
    Matches (whileNoFault s k) (whileNoFault s' k') := by
  intro t ht
  obtain ⟨hf, ht⟩ := whileNoFault_next.1 ht
  rw [whileNoFault_of_none (same.fault ▸ hf)]
  exact hk t ht

theorem matches_raiseFault (same : SameObservable s s') (code : FaultCode) (i : Instr) :
    Matches (raiseFault code i s) (raiseFault code i s') :=
  matches_next { same with fault := rfl }

theorem matches_readWritten {α : Type} {o o' : Option α} {k k' : α → Result} (same : SameObservable s s')
    (agree : o = o') (hk : ∀ a, Matches (k a) (k' a)) : Matches (readWritten o i s k) (readWritten o' i s' k') := by
  subst agree
  cases o with
  | none => exact same.matches_raiseFault _ _
  | some a => exact hk a

theorem matches_rejectOffset (same : SameObservable s s') (off : BitVec 8) (i : Instr) :
    Matches (rejectOffset off i s) (rejectOffset off i s') :=
  matches_ite Iff.rfl (fun _ => same.matches_raiseFault _ i) fun _ => same.matches_raiseFault _ i

theorem matches_acceptEdge (same : SameObservable s s') (n : Nat) : Matches (acceptEdge n s) (acceptEdge n s') := by
  rw [acceptEdge, acceptEdge, ← same.phase]
  cases phase : s.phase with
  | waitingForRising => exact matches_next (same.setPending_false.startPulse n)
  | waitingForFalling =>
    refine same.matches_readWritten (same.rise phase) fun r => ?_
    rw [same.cfg]
    exact matches_next (same.setPending_false.latchWidth _).setPhase_rising

/-- The capture register is read only while an edge is pending (R81). -/
theorem matches_execService (same : SameObservable s s') : Matches (execService s) (execService s') := by
  refine same.matches_whileNoFault <| matches_ite (by rw [same.pending]) (fun pending => ?_) fun _ => matches_next same
  refine same.matches_readWritten (same.captVal pending) fun n => ?_
  refine matches_ite (by rw [same.cfg]) (fun _ => ?_) fun _ => same.matches_acceptEdge n
  refine same.matches_readWritten (same.captPol pending) fun p => ?_
  exact matches_ite (by rw [same.phase]) (fun _ => same.matches_acceptEdge n) fun _ =>
    matches_next same.setPending_false

/-- WIDTH is read only while READY is set; the value shown otherwise is the same draw (R101, log entry 3). -/
theorem matches_execRdResult (same : SameObservable s s') : Matches (execRdResult s) (execRdResult s') := by
  refine same.matches_whileNoFault <| matches_ite (by rw [same.ready]) (fun ready => ?_) fun _ => ?_
  · refine same.matches_readWritten (same.width ready) fun n => ?_
    rw [same.cfg]
    exact matches_next (same.setReady_false.logResponse _)
  · rw [drawnWidth, drawnWidth, same.cfg, same.draws]
    exact matches_next (same.countDraw.logResponse _)

theorem matches_exec (same : SameObservable s s') (i : Instr) : Matches (exec i s) (exec i s') := by
  cases i with
  | service => exact same.matches_execService
  | rdResult => exact same.matches_execRdResult
  | reset => exact same.matches_whileNoFault (matches_next same.resetBlock)
  | tick =>
    refine same.matches_whileNoFault ?_
    rw [same.cnt, same.cfg]
    exact matches_next (same.setCnt _)
  | cntClear => exact same.matches_whileNoFault (matches_next (same.setCnt 0))
  | capture pol tick =>
    refine same.matches_whileNoFault ?_
    refine matches_ite (by rw [same.cfg]) (fun _ => same.matches_raiseFault _ _) fun _ => ?_
    refine matches_ite (by rw [same.pending]) (fun _ => same.matches_raiseFault _ _) fun _ => ?_
    exact matches_next (same.capture _ pol)
  | rdStatus =>
    refine same.matches_whileNoFault ?_
    rw [same.statusWord_eq]
    exact matches_next (same.logResponse _)
  | rdCtrl => exact same.matches_whileNoFault (matches_next (same.logResponse _))
  | wrCtrl data =>
    refine same.matches_whileNoFault <| matches_ite Iff.rfl (fun _ => same.matches_raiseFault _ _) fun _ => ?_
    exact matches_ite Iff.rfl (fun _ => matches_next same.abort) fun _ => matches_next same
  | rdOther off | wrOther off => exact same.matches_whileNoFault (same.matches_rejectOffset off _)
  | wrStatus | wrResult => exact same.matches_whileNoFault (same.matches_raiseFault _ _)

/-- Indistinguishable states answer every run alike. -/
theorem matches_runAll (same : SameObservable s s') (is : List Instr) : Matches (runAll is s) (runAll is s') := by
  induction is generalizing s s' with
  | nil => exact matches_next same
  | cons i is ih =>
    intro t hrun
    obtain ⟨u, he, hrest⟩ := runAll_cons_next.1 hrun
    exact runAll_cons_reaches (same.matches_exec i u he) fun _ same' => ih same' t hrest

end SameObservable

/-- Settles O50. -/
theorem stepsKeepStatesIndistinguishable : Obligations.StepsKeepStatesIndistinguishable :=
  fun i _ _ t same he => same.matches_exec i t he

theorem exec_reset (hf : s.fault = none) : exec .reset s = .next s.resetBlock := whileNoFault_of_none hf _

theorem exec_wrCtrl_one (hf : s.fault = none) : exec (.wrCtrl 1#16) s = .next s.abort := by
  rw [exec_wrCtrl hf, if_neg (by decide), if_pos (by decide)]

/-- Settles O49: the states right after the two cannot be told apart, and every run keeps that. -/
theorem abortAndResetCannotBeToldApart : Obligations.AbortAndResetCannotBeToldApart := by
  intro s a b t is hreset habort hrun
  obtain ⟨hf, -⟩ := exec_next_effect hreset
  obtain rfl : s.resetBlock = a := by simpa [exec_reset hf] using hreset
  obtain rfl : s.abort = b := by simpa [exec_wrCtrl_one hf] using habort
  exact (SameObservable.resetBlock_abort s).matches_runAll is t hrun

/-! ### Agents, and polling for ever -/

theorem exec_rdStatus (hf : s.fault = none) : exec .rdStatus s = .next (s.logResponse (statusWord s)) :=
  whileNoFault_of_none hf _

/-- No fault, and READY as at the start: what a host that polls STATUS keeps seeing (R100, R160). -/
structure PolledFrom (s u : State) : Prop where
  noFault : u.fault = none
  ready : u.ready = s.ready

theorem PolledFrom.poll (h : PolledFrom s u) : Reaches (exec .rdStatus u) (PolledFrom s) :=
  reaches_of_eq_next (exec_rdStatus h.noFault) { h with }

/-- Every agent but the engine is enabled whenever FAULT is *none* (R15, R28). -/
theorem agentEnabled_of_ne_engine {a : Agent} (notEngine : a ≠ .engine) (hf : s.fault = none) :
    agentEnabled a s = true := by
  cases a with
  | engine => exact absurd rfl notEngine
  | _ => simp [agentEnabled, hf]

theorem agentEnabled_engine (hf : s.fault = none) : agentEnabled .engine s = s.pending := by
  simp [agentEnabled, hf]

/-- Settles O44: nothing but the guard stops a transaction, and a STATUS read keeps what it needs to be taken again. -/
theorem theBlockNeverStopsWithoutAFault : Obligations.TheBlockNeverStopsWithoutAFault := by
  intro s hf
  obtain ⟨taken, reached⟩ := Run.infinite_takenFrom (tr := fun _ => .rdStatus) (P := fun _ => PolledFrom s) ⟨hf, rfl⟩
    fun _ u polled => ⟨rfl, agentEnabled_of_ne_engine (a := .consumer) nofun polled.noFault, polled.poll⟩
  refine ⟨fun i => answers_exec i hf, environment_enabled hf, agentEnabled_of_ne_engine nofun hf,
    agentEnabled_of_ne_engine nofun hf, agentEnabled_engine hf, taken, fun n t ht => ?_⟩
  exact (Reaches.of_next (reached n) ht).ready

/-! ### A fair engine -/

/-- The transaction takes a pending capture: it serves it or discards it (R81, R104, R170). -/
def TakesCapture (i : Instr) : Prop := i = .service ∨ isAbort i = true ∨ i = .reset

/-- The capture pending in `u` still waits in `v`, in the same phase of the same pulse, and no result came since. -/
structure StillWaits (u v : State) : Prop where
  cfg : v.cfg = u.cfg
  pending : v.pending = true
  captVal : v.captVal = u.captVal
  captPol : v.captPol = u.captPol
  phase : v.phase = u.phase
  rise : v.rise = u.rise
  notReady : u.ready = false → v.ready = false

theorem stillWaits_refl (pending : u.pending = true) : StillWaits u u := ⟨rfl, pending, rfl, rfl, rfl, rfl, id⟩

theorem StillWaits.edgeAccepted_eq (waits : StillWaits u v) (pending : u.pending = true) :
    edgeAccepted v = edgeAccepted u := by
  simp only [edgeAccepted, waits.cfg, waits.pending, waits.captPol, waits.phase, pending]

/-- A transaction that neither takes the capture nor raises a fault leaves it waiting. -/
theorem Effect.stillWaits (effect : Effect i v w) (hf : w.fault = none) (notTaken : ¬ TakesCapture i)
    (waits : StillWaits u v) : StillWaits u w := by
  cases effect with
  | raise => exact nomatch hf
  | capture _ _ _ _ free => exact nomatch free.symm.trans waits.pending
  | reset => exact absurd (.inr (.inr rfl)) notTaken
  | abort _ _ isAbort => exact absurd (.inr (.inl isAbort)) notTaken
  | serviceIdle | serviceIgnored | serviceRising | serviceFalling => exact absurd (.inl rfl) notTaken
  | rdResult => exact { waits with notReady := fun _ => rfl }
  | _ => exact { waits with }

/-- The SERVICE of an accepted falling edge met with READY = 0 latches its width, unless it raises a fault (R83). -/
theorem Effect.latches_width (effect : Effect .service v w) (hf : w.fault = none) (accepted : edgeAccepted v = true)
    (falling : v.phase = .waitingForFalling) (notReady : v.ready = false) :
    ∃ r f, v.rise = some r ∧ v.captVal = some f ∧ w.width = some (computeWidth r f v.cfg.M) ∧ w.ready = true := by
  cases effect with
  | raise => exact nomatch hf
  | serviceIdle _ idle => exact nomatch idle.symm.trans (edgeAccepted_iff.1 accepted).1
  | serviceIgnored _ _ _ ignored => exact nomatch ignored.symm.trans accepted
  | serviceRising _ _ _ _ rising => exact nomatch rising.symm.trans falling
  | serviceFalling _ f r _ val _ rise => exact ⟨r, f, rise, val, by simp [notReady], by simp⟩

section
variable {tr : Nat → Instr} {n : Nat}

/-- At point `m` of the run the capture pending in `u` still waits, and the run takes it. -/
structure TakenAt (tr : Nat → Instr) (s u : State) (m : Nat) (v : State) : Prop where
  reached : (Run.infinite tr).after s m = .next v
  waits : StillWaits u v
  takes : TakesCapture (tr m)

/-- A transaction of an infinite run goes to the run's next state, in which FAULT is *none*. -/
theorem Run.infinite_exec (run : (Run.infinite tr).TakenFrom s) (reached : (Run.infinite tr).after s n = .next v) :
    ∃ w, exec (tr n) v = .next w ∧ (Run.infinite tr).after s (n + 1) = .next w ∧ w.fault = none := by
  obtain ⟨w, -, next, hf, -⟩ := Run.infinite_state run (n + 1)
  obtain ⟨v', reached', he⟩ := Run.infinite_after_succ.1 next
  cases reached.symm.trans reached'
  exact ⟨w, he, next, hf⟩

/-- A pending capture waits until a transaction takes it. -/
theorem Run.infinite_waits_or_taken (run : (Run.infinite tr).TakenFrom s)
    (reached : (Run.infinite tr).after s n = .next u) (pending : u.pending = true) {m : Nat} (later : n ≤ m) :
    (∃ k v, n ≤ k ∧ TakenAt tr s u k v) ∨ Reaches ((Run.infinite tr).after s m) (StillWaits u) := by
  induction m, later using Nat.le_induction with
  | base => exact .inr (reaches_of_eq_next reached (stillWaits_refl pending))
  | succ m later ih =>
    obtain taken | ⟨v, hv, waits⟩ := ih
    · exact .inl taken
    by_cases takes : TakesCapture (tr m)
    · exact .inl ⟨m, v, later, hv, waits, takes⟩
    · obtain ⟨w, he, next, hf⟩ := Run.infinite_exec run hv
      exact .inr (reaches_of_eq_next next ((exec_next_effect he).2.stillWaits hf takes waits))

/-- Under weak fairness a pending capture is taken: while it waits the engine is enabled, so the run has a SERVICE to
come (R185, log entry 18). -/
theorem Run.infinite_takes_pending (run : (Run.infinite tr).TakenFrom s) (fair : WeaklyFair tr s)
    (reached : (Run.infinite tr).after s n = .next u) (pending : u.pending = true) :
    ∃ m v, n ≤ m ∧ TakenAt tr s u m v := by
  obtain ⟨m, later, served⟩ := fair n
  obtain taken | ⟨v, hv, waits⟩ := Run.infinite_waits_or_taken run reached pending later
  · exact taken
  obtain service | ⟨v', hv', disabled⟩ := served
  · exact ⟨m, v, later, hv, waits, .inl service⟩
  · cases hv.symm.trans hv'
    obtain ⟨w, he, -, -⟩ := Run.infinite_exec run hv
    obtain ⟨hf, -⟩ := exec_next_effect he
    exact nomatch ((agentEnabled_engine hf).trans waits.pending).symm.trans disabled

end

/-- Settles O60: the point where the capture is taken, with what its transaction does there. -/
theorem fairEngineServesEveryPendingCapture : Obligations.FairEngineServesEveryPendingCapture := by
  intro s tr run
  refine ⟨fun n => ?_, fun fair n u reached pending => ?_⟩
  · obtain ⟨u, -, hu, hf, -⟩ := Run.infinite_state run n
    exact ⟨u, hu, hf⟩
  · obtain ⟨m, v, later, hv, waits, takes⟩ := Run.infinite_takes_pending run fair reached pending
    obtain ⟨w, he, -, hf⟩ := Run.infinite_exec run hv
    obtain ⟨-, effect⟩ := exec_next_effect he
    have cleared : w.pending = false := (effect.pending_falls_iff hf waits.pending).2 takes
    refine ⟨m, v, w, later, hv, he, takes, waits.pending, waits.captVal, waits.captPol, waits.phase, cleared,
      fun service accepted falling notReady => ?_⟩
    rw [← waits.rise, ← waits.captVal, ← waits.cfg]
    exact Effect.latches_width (service ▸ effect) hf ((waits.edgeAccepted_eq pending).trans accepted)
      (waits.phase.trans falling) (waits.notReady notReady)

/-! ### Ticks and time -/

/-- Settles O40: both counts bound their edge's time from both sides (log entry 14). -/
theorem tickCountIsWithinOneTickOfThePulse : Obligations.TickCountIsWithinOneTickOfThePulse := by
  rintro tickNs start tau n m ⟨startLow, startHigh⟩ ⟨endLow, endHigh⟩
  rw [Nat.succ_mul] at startHigh endHigh
  omega

/-! ### The block after a reset -/

/-- An armed block without a result reads STATUS 0 (R100, R173). -/
theorem Armed.statusWord_eq_zero (armed : Armed s) (notReady : s.ready = false) : statusWord s = 0#32 := by
  simp [statusWord, flagAt, phaseBit, armed.rising, armed.idle, notReady]

theorem armed_resetBlock (s : State) : Armed s.resetBlock := ⟨rfl, rfl⟩

/-- Settles O48: RESET is `resetBlock`, which arms the block. -/
theorem resetClearsTheBlock : Obligations.ResetClearsTheBlock := by
  refine ⟨spelledBy_encode (i := .reset) rfl, fun s hf => ⟨agentEnabled_of_ne_engine nofun hf, exec_reset hf, ?_⟩⟩
  have read : exec .rdStatus s.resetBlock = .next (s.resetBlock.logResponse (statusWord s.resetBlock)) :=
    exec_rdStatus hf
  refine ⟨_, runAll_cons_next.2 ⟨_, exec_reset hf, runAll_singleton.trans read⟩, ?_⟩
  rw [(armed_resetBlock s).statusWord_eq_zero rfl]
  rfl

theorem armed_start (c : Config) (cnt : Nat) : Armed (State.start c cnt) := ⟨rfl, rfl⟩

/-- Settles O51: the fields are `State.start`'s, and CNT is a remainder mod `M`. -/
theorem runStartsInTheResetState : Obligations.RunStartsInTheResetState :=
  ⟨rfl, rfl, rfl, rfl, rfl, rfl, rfl, rfl, rfl, rfl, invariantHoldsAtTheStart.1.cntBelow,
    (armed_start _ _).statusWord_eq_zero rfl⟩

/-- The state in which a run's first edge, captured at tick `v`, waits for the engine. -/
def State.firstEdge (c : Config) (cnt : Nat) (pol : Polarity) (v : Nat) : State :=
  ((State.start c cnt).setCapture (some v) (some pol)).setPending true

section
variable {c : Config} {cnt : Nat} {pol : Polarity}

theorem exec_capture_start {tick : BitVec 24} (below : tick.toNat < c.M) :
    exec (.capture pol tick) (State.start c cnt) = .next (State.firstEdge c cnt pol tick.toNat) := by
  obtain ⟨-, latches, -⟩ := captureLatchesOrFaults (State.start c cnt) pol tick rfl
  exact latches below rfl

theorem edgeAccepted_firstEdge {v : Nat} (starts : c.seqCheck = false ∨ pol = .rising) :
    edgeAccepted (State.firstEdge c cnt pol v) = true := by
  refine edgeAccepted_iff.2 ⟨rfl, fun (checked : c.seqCheck = true) => congrArg some ?_⟩
  exact starts.resolve_left (by simp [checked])

end

/-- Settles O59: the first edge either is accepted and takes the rising branch, or is a falling one that SEQ_CHECK
ignores. -/
theorem firstEdgeAfterResetStartsAPulse : Obligations.FirstEdgeAfterResetStartsAPulse := by
  intro c cnt pol tick _ below
  have completes {t : State} (serve : exec .service (State.firstEdge c cnt pol tick.toNat) = .next t) :
      runAll [.capture pol tick, .service] (State.start c cnt) = .next t :=
    runAll_cons_next.2 ⟨_, exec_capture_start below, runAll_singleton.trans serve⟩
  by_cases starts : c.seqCheck = false ∨ pol = .rising
  · have serve := serviceRisingBranchRecordsTheEdge (State.firstEdge c cnt pol tick.toNat) tick.toNat rfl
      (edgeAccepted_firstEdge starts) rfl rfl
    refine ⟨_, completes serve, rfl, rfl, fun _ => ⟨rfl, rfl⟩, fun checked falling => ?_⟩
    simp [checked, falling] at starts
  · obtain ⟨checked, notRising⟩ := not_or.1 starts
    have serve := serviceIgnoresAnEdgeOutOfSequence (State.firstEdge c cnt pol tick.toNat) tick.toNat pol rfl rfl
      (Bool.eq_true_of_not_eq_false checked) rfl rfl notRising
    exact ⟨_, completes serve, rfl, rfl, fun starts' => absurd starts' starts, fun _ _ => ⟨rfl, rfl⟩⟩

end Sys2Proof.Machine
end
